-- ==== Sys2Proof/Word.lean ====
section
/-! DEFINITION. Word: the widths the block works in and the formats of its operations. -/

namespace Sys2Proof

/-- Every access and every register is one byte wide (R240). -/
abbrev Byte := BitVec 8

/-- A bus address (R200). -/
abbrev Addr := BitVec 16

/-- The five formats of the opcode map (R300, R310, R320, R330, R340). -/
inductive Fmt where
  | bus | host | step | event | render
deriving DecidableEq, Repr

/-- The four access paths of the memory unit (R201), in the numbering of R310. -/
inductive AccessKind where
  | cpuRead | cpuWrite | chipDmaRead | chipBitmapRead
deriving DecidableEq, Repr

end Sys2Proof
end

