-- ==== Sys2Proof/Machine/Bits.lean ====
section
/-! DEFINITION. Machine.Bits: the bit and field notation of R40 and R41. -/

namespace Sys2Proof.Machine

/-- `v[i]`, a single bit. -/
def bit {w : Nat} (v : BitVec w) (i : Nat) : Bool := v.getLsbD i

/-- `v[lo+len-1 : lo]`, a field. -/
def field {w : Nat} (v : BitVec w) (lo len : Nat) : BitVec len := v.extractLsb' lo len

/-- A bit as a one-bit field. -/
def bit1 (b : Bool) : BitVec 1 := BitVec.ofBool b

/-- `b << i` in a byte. -/
def byteBit (b : Bool) (i : Nat) : Byte := if b then (1#8) <<< i else 0#8

/-- `v[i] <- 1`. -/
def setBit {w : Nat} (v : BitVec w) (i : Nat) : BitVec w := v ||| (1#w) <<< i

/-- The high byte of a 16-bit value. -/
def hiByte (v : BitVec 16) : Byte := field v 8 8

/-- The low byte of a 16-bit value. -/
def loByte (v : BitVec 16) : Byte := field v 0 8

/-- `hi ++ lo` (R361). -/
def word16 (hi lo : Byte) : BitVec 16 := hi ++ lo

end Sys2Proof.Machine
end

