-- ==== Sys2Proof/Syntax.lean ====
section
/-! DEFINITION. Syntax: one constructor per row of the opcode table (R302), in the table's order. -/

namespace Sys2Proof

/-- One operation of the block (R7). The operands are those of R300 (the address bits a row leaves open and the data
byte beside a write) and R310 (the operands of a host call). A snapshot operand is the number of a snapshot the host
holds (log 17). The key bits that RENDER_BLANK and RENDER_BORDER leave open (R340) are kept, so that no bit of a key
is dropped. -/
inductive Instr where
  /-- RD_FF00 (R550) -/
  | rdFF00
  /-- RD_FF01 (R551) -/
  | rdFF01
  /-- RD_FF02 (R552) -/
  | rdFF02
  /-- RD_FF03 (R553) -/
  | rdFF03
  /-- RD_FF04 (R554) -/
  | rdFF04
  /-- RD_FF05 (R555) -/
  | rdFF05
  /-- RD_FF06 (R556) -/
  | rdFF06
  /-- RD_FF07 (R557) -/
  | rdFF07
  /-- RD_FF08 (R558) -/
  | rdFF08
  /-- RD_FF09 (R559) -/
  | rdFF09
  /-- RD_FF0A (R560) -/
  | rdFF0A
  /-- RD_FF0B (R561) -/
  | rdFF0B
  /-- RD_FF0C (R562) -/
  | rdFF0C
  /-- RD_FF0D (R563) -/
  | rdFF0D
  /-- RD_FF0E (R564) -/
  | rdFF0E
  /-- RD_FF0F (R565) -/
  | rdFF0F
  /-- RD_FF10 (R566) -/
  | rdFF10
  /-- RD_FF11 (R567) -/
  | rdFF11
  /-- RD_FF12 (R568) -/
  | rdFF12
  /-- RD_FF13 (R569) -/
  | rdFF13
  /-- RD_FF14 (R570) -/
  | rdFF14
  /-- RD_FF15 (R571) -/
  | rdFF15
  /-- RD_FF16 (R572) -/
  | rdFF16
  /-- RD_FF17 (R573) -/
  | rdFF17
  /-- RD_FF18 (R574) -/
  | rdFF18
  /-- RD_FF19 (R575) -/
  | rdFF19
  /-- RD_FF1A (R576) -/
  | rdFF1A
  /-- RD_FF1B (R577) -/
  | rdFF1B
  /-- RD_FF1C (R578) -/
  | rdFF1C
  /-- RD_FF1D (R579) -/
  | rdFF1D
  /-- RD_FF1E (R580) -/
  | rdFF1E
  /-- RD_FF1F (R581) -/
  | rdFF1F
  /-- WR_FF00 (R510) -/
  | wrFF00 (v : Byte)
  /-- WR_FF01 (R511) -/
  | wrFF01 (v : Byte)
  /-- WR_FF02 (R512) -/
  | wrFF02 (v : Byte)
  /-- WR_FF03 (R513) -/
  | wrFF03 (v : Byte)
  /-- WR_FF04 (R514) -/
  | wrFF04 (v : Byte)
  /-- WR_FF05 (R515) -/
  | wrFF05 (v : Byte)
  /-- WR_FF06 (R516) -/
  | wrFF06 (v : Byte)
  /-- WR_FF07 (R517) -/
  | wrFF07 (v : Byte)
  /-- WR_FF08 (R518) -/
  | wrFF08 (v : Byte)
  /-- WR_FF09 (R519) -/
  | wrFF09 (v : Byte)
  /-- WR_FF0A (R520) -/
  | wrFF0A (v : Byte)
  /-- WR_FF0B (R521) -/
  | wrFF0B (v : Byte)
  /-- WR_FF0C (R522) -/
  | wrFF0C (v : Byte)
  /-- WR_FF0D (R523) -/
  | wrFF0D (v : Byte)
  /-- WR_FF0E (R524) -/
  | wrFF0E (v : Byte)
  /-- WR_FF0F (R525) -/
  | wrFF0F (v : Byte)
  /-- WR_FF10 (R526) -/
  | wrFF10 (v : Byte)
  /-- WR_FF11 (R527) -/
  | wrFF11 (v : Byte)
  /-- WR_FF12 (R528) -/
  | wrFF12 (v : Byte)
  /-- WR_FF13 (R529) -/
  | wrFF13 (v : Byte)
  /-- WR_FF14 (R530) -/
  | wrFF14 (v : Byte)
  /-- WR_FF15 (R531) -/
  | wrFF15 (v : Byte)
  /-- WR_FF16 (R532) -/
  | wrFF16 (v : Byte)
  /-- WR_FF17 (R533) -/
  | wrFF17 (v : Byte)
  /-- WR_FF18 (R534) -/
  | wrFF18 (v : Byte)
  /-- WR_FF19 (R535) -/
  | wrFF19 (v : Byte)
  /-- WR_FF1A (R536) -/
  | wrFF1A (v : Byte)
  /-- WR_FF1B (R537) -/
  | wrFF1B (v : Byte)
  /-- WR_FF1C (R538) -/
  | wrFF1C (v : Byte)
  /-- WR_FF1D (R539) -/
  | wrFF1D (v : Byte)
  /-- WR_FF1E (R540) -/
  | wrFF1E (v : Byte)
  /-- WR_FF1F (R541) -/
  | wrFF1F (v : Byte)
  /-- WR_FF3E (R590) -/
  | wrFF3E (v : Byte)
  /-- WR_FF3F (R591) -/
  | wrFF3F (v : Byte)
  /-- WR_FDDx (R592) -/
  | wrFDDx (x : BitVec 4) (v : Byte)
  /-- IO_RD_FD (R593) -/
  | ioRdFD (lo : Byte)
  /-- IO_RD_FE (R593) -/
  | ioRdFE (lo : Byte)
  /-- IO_WR_FD (R593) -/
  | ioWrFD (lo : Byte) (v : Byte)
  /-- IO_WR_FE (R593) -/
  | ioWrFE (lo : Byte) (v : Byte)
  /-- MEM_RD (R594) -/
  | memRd (a : Addr)
  /-- MEM_WR (R595) -/
  | memWr (a : Addr) (v : Byte)
  /-- HOST_configureRAM (R400) -/
  | hostConfigureRAM (sizeKiB : Int) (fillPattern : Nat)
  /-- HOST_loadROM (R410) -/
  | hostLoadROM (bank offset length : Int) (bytes : Option (List Byte))
  /-- HOST_resolve (R420) -/
  | hostResolve (kind : AccessKind) (a : Addr)
  /-- HOST_getSegmentKind (R430) -/
  | hostGetSegmentKind (slot : Int)
  /-- HOST_run (R800) -/
  | hostRun (ticks : Int)
  /-- HOST_reset (R1200) -/
  | hostReset (cold : Bool)
  /-- HOST_saveState (R1210) -/
  | hostSaveState
  /-- HOST_loadState (R1211) -/
  | hostLoadState (snapshot : Nat)
  /-- HOST_registerCallback (R851) -/
  | hostRegisterCallback (callback userData : Nat)
  /-- HOST_writeRegister (R852) -/
  | hostWriteRegister (offset : BitVec 5) (v : Byte)
  /-- HOST_readRegister (R853) -/
  | hostReadRegister (offset : BitVec 5)
  /-- HOST_RESERVED_B (R312) -/
  | hostReservedB
  /-- HOST_RESERVED_C (R312) -/
  | hostReservedC
  /-- HOST_RESERVED_D (R312) -/
  | hostReservedD
  /-- HOST_RESERVED_E (R312) -/
  | hostReservedE
  /-- HOST_RESERVED_F (R312) -/
  | hostReservedF
  /-- STEP_PHASE_EVEN (R810) -/
  | stepPhaseEven
  /-- STEP_PHASE_ODD (R811) -/
  | stepPhaseOdd
  /-- STEP_SOUND_TICK (R1020) -/
  | stepSoundTick
  /-- STEP_DAC_FORCE (R1010) -/
  | stepDacForce
  /-- EV_LOAD_HPOS (R740) -/
  | evLoadHpos
  /-- EV_LOAD_CPOS_RELOAD (R741) -/
  | evLoadCposReload
  /-- EV_LOAD_VSUB (R742) -/
  | evLoadVsub
  /-- EV_INC_VIDEO_LINE (R743) -/
  | evIncVideoLine
  /-- EV_UPDATE_VSUB (R744) -/
  | evUpdateVsub
  /-- EV_SELECT_RENDERER (R745) -/
  | evSelectRenderer
  /-- EV_STOP_DMA (R746) -/
  | evStopDma
  /-- EV_RESERVED_7 (R331) -/
  | evReserved7
  /-- EV_RESERVED_8 (R331) -/
  | evReserved8
  /-- EV_RESERVED_9 (R331) -/
  | evReserved9
  /-- EV_RESERVED_10 (R331) -/
  | evReserved10
  /-- EV_RESERVED_11 (R331) -/
  | evReserved11
  /-- EV_RESERVED_12 (R331) -/
  | evReserved12
  /-- EV_RESERVED_13 (R331) -/
  | evReserved13
  /-- EV_RESERVED_14 (R331) -/
  | evReserved14
  /-- EV_RESERVED_15 (R331) -/
  | evReserved15
  /-- EV_RESERVED_16 (R331) -/
  | evReserved16
  /-- EV_RESERVED_17 (R331) -/
  | evReserved17
  /-- EV_RESERVED_18 (R331) -/
  | evReserved18
  /-- EV_RESERVED_19 (R331) -/
  | evReserved19
  /-- EV_RESERVED_20 (R331) -/
  | evReserved20
  /-- EV_RESERVED_21 (R331) -/
  | evReserved21
  /-- EV_RESERVED_22 (R331) -/
  | evReserved22
  /-- EV_RESERVED_23 (R331) -/
  | evReserved23
  /-- EV_RESERVED_24 (R331) -/
  | evReserved24
  /-- EV_RESERVED_25 (R331) -/
  | evReserved25
  /-- EV_RESERVED_26 (R331) -/
  | evReserved26
  /-- EV_RESERVED_27 (R331) -/
  | evReserved27
  /-- EV_RESERVED_28 (R331) -/
  | evReserved28
  /-- EV_RESERVED_29 (R331) -/
  | evReserved29
  /-- EV_RESERVED_30 (R331) -/
  | evReserved30
  /-- EV_RESERVED_31 (R331) -/
  | evReserved31
  /-- RENDER_TEXT (R920) -/
  | renderText
  /-- RENDER_MC_TEXT (R921) -/
  | renderMcText
  /-- RENDER_HIRES_BMP (R923) -/
  | renderHiresBmp
  /-- RENDER_MC_BMP (R924) -/
  | renderMcBmp
  /-- RENDER_ECM_TEXT (R922) -/
  | renderEcmText
  /-- RENDER_INVALID_101 (R926) -/
  | renderInvalid101
  /-- RENDER_INVALID_110 (R926) -/
  | renderInvalid110
  /-- RENDER_INVALID_111 (R926) -/
  | renderInvalid111
  /-- RENDER_BLANK (R927) -/
  | renderBlank (border : Bool) (mode : BitVec 3)
  /-- RENDER_BORDER (R928) -/
  | renderBorder (mode : BitVec 3)
deriving DecidableEq, Repr

end Sys2Proof
end

