-- ==== Sys2Proof/WellFormed.lean ====
section
/-! DEFINITION. WellFormed: which terms of Instr stand for a word of the block. -/

namespace Sys2Proof

/-- An operand number fits the 32 bits the model gives it in an operation's bytes (log 15). -/
def fitsNat (n : Nat) : Bool := decide (n < 2 ^ 32)

/-- A signed operand fits 32 bits (log 15). -/
def fitsInt (n : Int) : Bool := decide (-2 ^ 31 ≤ n) && decide (n < 2 ^ 31)

/-- The addresses of R301 (1): the register block. -/
def inRegisterBlock (a : Addr) : Bool := decide (0xFF00 ≤ a.toNat) && decide (a.toNat ≤ 0xFF1F)

/-- The addresses of R301 (4): the external I/O range. -/
def inIoRange (a : Addr) : Bool := decide (0xFD00 ≤ a.toNat) && decide (a.toNat ≤ 0xFEFF)

/-- The write-only latches of R301 (2). -/
def isRomLatch (a : Addr) : Bool := decide (a.toNat = 0xFF3E) || decide (a.toNat = 0xFF3F)

/-- The low bytes of the ROM-bank latch of R301 (3) within page 0xFD. -/
def isBankLatchLow (lo : Byte) : Bool := decide (lo.toNat / 16 = 0xD)

/-- The rows of the table are taken in the priority order of R301: a memory or I/O row stands only for an address that
no earlier row matches. The numbers of host calls fit their operand bytes. -/
def Instr.wellFormed : Instr → Bool
  | .ioWrFD lo _ => !isBankLatchLow lo
  | .memRd a => !inRegisterBlock a && !inIoRange a
  | .memWr a _ => !inRegisterBlock a && !inIoRange a && !isRomLatch a
  | .hostConfigureRAM size fp => fitsInt size && fitsNat fp
  | .hostLoadROM bank offset length bytes =>
    fitsInt bank && fitsInt offset && fitsInt length && fitsNat ((bytes.getD []).length)
  | .hostGetSegmentKind slot => fitsInt slot
  | .hostRun ticks => fitsInt ticks
  | .hostLoadState k => fitsNat k
  | .hostRegisterCallback cb ud => fitsNat cb && fitsNat ud
  | .rdFF00 | .rdFF01 | .rdFF02 | .rdFF03 | .rdFF04 | .rdFF05 | .rdFF06 | .rdFF07 | .rdFF08 | .rdFF09 | .rdFF0A
  | .rdFF0B | .rdFF0C | .rdFF0D | .rdFF0E | .rdFF0F | .rdFF10 | .rdFF11 | .rdFF12 | .rdFF13 | .rdFF14 | .rdFF15
  | .rdFF16 | .rdFF17 | .rdFF18 | .rdFF19 | .rdFF1A | .rdFF1B | .rdFF1C | .rdFF1D | .rdFF1E | .rdFF1F | .wrFF00 _
  | .wrFF01 _ | .wrFF02 _ | .wrFF03 _ | .wrFF04 _ | .wrFF05 _ | .wrFF06 _ | .wrFF07 _ | .wrFF08 _ | .wrFF09 _
  | .wrFF0A _ | .wrFF0B _ | .wrFF0C _ | .wrFF0D _ | .wrFF0E _ | .wrFF0F _ | .wrFF10 _ | .wrFF11 _ | .wrFF12 _
  | .wrFF13 _ | .wrFF14 _ | .wrFF15 _ | .wrFF16 _ | .wrFF17 _ | .wrFF18 _ | .wrFF19 _ | .wrFF1A _ | .wrFF1B _
  | .wrFF1C _ | .wrFF1D _ | .wrFF1E _ | .wrFF1F _ | .wrFF3E _ | .wrFF3F _ | .wrFDDx _ _ | .ioRdFD _ | .ioRdFE _
  | .ioWrFE _ _ | .hostResolve _ _ | .hostReset _ | .hostSaveState | .hostWriteRegister _ _ | .hostReadRegister _
  | .hostReservedB | .hostReservedC | .hostReservedD | .hostReservedE | .hostReservedF | .stepPhaseEven
  | .stepPhaseOdd | .stepSoundTick | .stepDacForce | .evLoadHpos | .evLoadCposReload | .evLoadVsub
  | .evIncVideoLine | .evUpdateVsub | .evSelectRenderer | .evStopDma | .evReserved7 | .evReserved8 | .evReserved9
  | .evReserved10 | .evReserved11 | .evReserved12 | .evReserved13 | .evReserved14 | .evReserved15 | .evReserved16
  | .evReserved17 | .evReserved18 | .evReserved19 | .evReserved20 | .evReserved21 | .evReserved22 | .evReserved23
  | .evReserved24 | .evReserved25 | .evReserved26 | .evReserved27 | .evReserved28 | .evReserved29 | .evReserved30
  | .evReserved31 | .renderText | .renderMcText | .renderHiresBmp | .renderMcBmp | .renderEcmText
  | .renderInvalid101 | .renderInvalid110 | .renderInvalid111 | .renderBlank _ _ | .renderBorder _ => true

end Sys2Proof
end

