-- ==== Sys2Proof/Decode.lean ====
section
/-! DEFINITION. Decode: bytes to operations by the formats of 30_encoding.md, and the encoder beside it.

The five formats are five channels (R300, R310, R320, R330, R340): what is decoded comes with the channel it came on.
The bit numbers of a word are those of R40; a word of more than 8 bits lies in its bytes from the low bits up, and the
operands of a host call follow its selector byte (log 15: the spec gives host operands no bits). -/

namespace Sys2Proof

/-- One queued operation: its channel and its bytes. -/
structure OpWord where
  fmt : Fmt
  bytes : List Byte
deriving DecidableEq, Repr

/-- Why bytes are no operation. -/
inductive DecodeError where
  /-- fewer bytes than the operation needs -/
  | truncated
  /-- a bit above the width of the format's word is set -/
  | wordTooWide (fmt : Fmt)
  /-- the tag of loadROM's byte sequence is neither NULL nor a sequence -/
  | badTag
deriving DecidableEq, Repr

/-- Four bytes, the low one first, as 32 bits. -/
def take32 : List Byte → Except DecodeError (BitVec 32 × List Byte)
  | b0 :: b1 :: b2 :: b3 :: rest => .ok (b3 ++ b2 ++ b1 ++ b0, rest)
  | _ => .error .truncated

/-- The four bytes of 32 bits, the low one first. -/
def bytes32 (x : BitVec 32) : List Byte :=
  [x.extractLsb' 0 8, x.extractLsb' 8 8, x.extractLsb' 16 8, x.extractLsb' 24 8]

/-- A signed operand: two's complement in four bytes. -/
def takeInt (bs : List Byte) : Except DecodeError (Int × List Byte) :=
  (take32 bs).map fun r => (r.1.toInt, r.2)

/-- An unsigned operand in four bytes. -/
def takeNat (bs : List Byte) : Except DecodeError (Nat × List Byte) :=
  (take32 bs).map fun r => (r.1.toNat, r.2)

/-- A one-byte operand. -/
def takeByte : List Byte → Except DecodeError (Byte × List Byte)
  | b :: rest => .ok (b, rest)
  | [] => .error .truncated

/-- A two-byte address operand, the low byte first. -/
def takeAddr : List Byte → Except DecodeError (Addr × List Byte)
  | b0 :: b1 :: rest => .ok (b1 ++ b0, rest)
  | _ => .error .truncated

/-- The first `n` bytes. -/
def takeBytes (n : Nat) (bs : List Byte) : Except DecodeError (List Byte × List Byte) :=
  if bs.length < n then .error .truncated else .ok (bs.take n, bs.drop n)

def encodeInt (n : Int) : List Byte := bytes32 (BitVec.ofInt 32 n)

def encodeNat (n : Nat) : List Byte := bytes32 (BitVec.ofNat 32 n)

def encodeAddr (a : Addr) : List Byte := [a.extractLsb' 0 8, a.extractLsb' 8 8]

/-- The kinds of resolve in the numbering of R310; the operand is 2 bits (R311). -/
def kindOf (b : BitVec 2) : AccessKind :=
  if b = 0 then .cpuRead else if b = 1 then .cpuWrite else if b = 2 then .chipDmaRead else .chipBitmapRead

def kindCode : AccessKind → Byte
  | .cpuRead => 0 | .cpuWrite => 1 | .chipDmaRead => 2 | .chipBitmapRead => 3

/-- The row of a read of register offset `o` (R301 (1), R302). -/
def readRow (o : BitVec 5) : Instr :=
  match o.toNat with
  | 0x00 => .rdFF00
  | 0x01 => .rdFF01
  | 0x02 => .rdFF02
  | 0x03 => .rdFF03
  | 0x04 => .rdFF04
  | 0x05 => .rdFF05
  | 0x06 => .rdFF06
  | 0x07 => .rdFF07
  | 0x08 => .rdFF08
  | 0x09 => .rdFF09
  | 0x0A => .rdFF0A
  | 0x0B => .rdFF0B
  | 0x0C => .rdFF0C
  | 0x0D => .rdFF0D
  | 0x0E => .rdFF0E
  | 0x0F => .rdFF0F
  | 0x10 => .rdFF10
  | 0x11 => .rdFF11
  | 0x12 => .rdFF12
  | 0x13 => .rdFF13
  | 0x14 => .rdFF14
  | 0x15 => .rdFF15
  | 0x16 => .rdFF16
  | 0x17 => .rdFF17
  | 0x18 => .rdFF18
  | 0x19 => .rdFF19
  | 0x1A => .rdFF1A
  | 0x1B => .rdFF1B
  | 0x1C => .rdFF1C
  | 0x1D => .rdFF1D
  | 0x1E => .rdFF1E
  | _ => .rdFF1F

/-- The row of a write of `v` to register offset `o` (R301 (1), R302). -/
def writeRow (o : BitVec 5) (v : Byte) : Instr :=
  match o.toNat with
  | 0x00 => .wrFF00 v
  | 0x01 => .wrFF01 v
  | 0x02 => .wrFF02 v
  | 0x03 => .wrFF03 v
  | 0x04 => .wrFF04 v
  | 0x05 => .wrFF05 v
  | 0x06 => .wrFF06 v
  | 0x07 => .wrFF07 v
  | 0x08 => .wrFF08 v
  | 0x09 => .wrFF09 v
  | 0x0A => .wrFF0A v
  | 0x0B => .wrFF0B v
  | 0x0C => .wrFF0C v
  | 0x0D => .wrFF0D v
  | 0x0E => .wrFF0E v
  | 0x0F => .wrFF0F v
  | 0x10 => .wrFF10 v
  | 0x11 => .wrFF11 v
  | 0x12 => .wrFF12 v
  | 0x13 => .wrFF13 v
  | 0x14 => .wrFF14 v
  | 0x15 => .wrFF15 v
  | 0x16 => .wrFF16 v
  | 0x17 => .wrFF17 v
  | 0x18 => .wrFF18 v
  | 0x19 => .wrFF19 v
  | 0x1A => .wrFF1A v
  | 0x1B => .wrFF1B v
  | 0x1C => .wrFF1C v
  | 0x1D => .wrFF1D v
  | 0x1E => .wrFF1E v
  | _ => .wrFF1F v

/-- A CPU read of address `a`: the first matching row in the priority order of R301. -/
def decodeBusRead (a : Addr) : Instr :=
  if a.extractLsb' 5 11 = 0x7F8#11 then readRow (a.extractLsb' 0 5)
  else if a.extractLsb' 8 8 = 0xFD#8 then .ioRdFD (a.extractLsb' 0 8)
  else if a.extractLsb' 8 8 = 0xFE#8 then .ioRdFE (a.extractLsb' 0 8)
  else .memRd a

/-- A CPU write of `v` to address `a`: the first matching row in the priority order of R301. -/
def decodeBusWrite (a : Addr) (v : Byte) : Instr :=
  if a.extractLsb' 5 11 = 0x7F8#11 then writeRow (a.extractLsb' 0 5) v
  else if a = 0xFF3E#16 then .wrFF3E v
  else if a = 0xFF3F#16 then .wrFF3F v
  else if a.extractLsb' 4 12 = 0xFDD#12 then .wrFDDx (a.extractLsb' 0 4) v
  else if a.extractLsb' 8 8 = 0xFD#8 then .ioWrFD (a.extractLsb' 0 8) v
  else if a.extractLsb' 8 8 = 0xFE#8 then .ioWrFE (a.extractLsb' 0 8) v
  else .memWr a v

/-- Format BUS (R300): a 17-bit word `dir ++ addr` in three bytes, and the data byte of a write beside it. -/
def decodeBus : List Byte → Except DecodeError (Instr × List Byte)
  | b0 :: b1 :: b2 :: rest =>
    if b2 = 1#8 then .ok (decodeBusRead (b1 ++ b0), rest)
    else if b2 = 0#8 then
      match rest with
      | v :: rest' => .ok (decodeBusWrite (b1 ++ b0) v, rest')
      | [] => .error .truncated
    else .error (.wordTooWide .bus)
  | _ => .error .truncated

/-- The byte sequence operand of loadROM: tag 0 is NULL, tag 1 a counted sequence (R310, log 15). -/
def takeRomBytes (bs : List Byte) : Except DecodeError (Option (List Byte) × List Byte) := do
  let (tag, bs) ← takeByte bs
  if tag = 0#8 then pure (none, bs)
  else if tag = 1#8 then
    let (n, bs) ← takeNat bs
    let (data, bs) ← takeBytes n bs
    pure (some data, bs)
  else .error .badTag

/-- Format HOST (R310): a 4-bit selector in one byte, and the operands of the call. The register offset is 5 bits and
the resolve kind 2 bits (R311): the higher bits of their bytes are masked off, as R852 does (`o & 0x1F`). -/
def decodeHost (sel : Byte) (bs : List Byte) : Except DecodeError (Instr × List Byte) :=
  match sel.toNat with
  | 0x0 => do
    let (size, bs) ← takeInt bs
    let (fp, bs) ← takeNat bs
    pure (.hostConfigureRAM size fp, bs)
  | 0x1 => do
    let (bank, bs) ← takeInt bs
    let (offset, bs) ← takeInt bs
    let (length, bs) ← takeInt bs
    let (data, bs) ← takeRomBytes bs
    pure (.hostLoadROM bank offset length data, bs)
  | 0x2 => do
    let (kind, bs) ← takeByte bs
    let (a, bs) ← takeAddr bs
    pure (.hostResolve (kindOf (kind.extractLsb' 0 2)) a, bs)
  | 0x3 => do
    let (slot, bs) ← takeInt bs
    pure (.hostGetSegmentKind slot, bs)
  | 0x4 => do
    let (ticks, bs) ← takeInt bs
    pure (.hostRun ticks, bs)
  | 0x5 => do
    let (cold, bs) ← takeByte bs
    pure (.hostReset (cold.getLsbD 0), bs)
  | 0x6 => .ok (.hostSaveState, bs)
  | 0x7 => do
    let (k, bs) ← takeNat bs
    pure (.hostLoadState k, bs)
  | 0x8 => do
    let (cb, bs) ← takeNat bs
    let (ud, bs) ← takeNat bs
    pure (.hostRegisterCallback cb ud, bs)
  | 0x9 => do
    let (o, bs) ← takeByte bs
    let (v, bs) ← takeByte bs
    pure (.hostWriteRegister (o.extractLsb' 0 5) v, bs)
  | 0xA => do
    let (o, bs) ← takeByte bs
    pure (.hostReadRegister (o.extractLsb' 0 5), bs)
  | 0xB => .ok (.hostReservedB, bs)
  | 0xC => .ok (.hostReservedC, bs)
  | 0xD => .ok (.hostReservedD, bs)
  | 0xE => .ok (.hostReservedE, bs)
  | 0xF => .ok (.hostReservedF, bs)
  | _ => .error (.wordTooWide .host)

/-- Format STEP (R320): a 2-bit selector. -/
def decodeStep (sel : Byte) : Except DecodeError Instr :=
  match sel.toNat with
  | 0 => .ok .stepPhaseEven
  | 1 => .ok .stepPhaseOdd
  | 2 => .ok .stepSoundTick
  | 3 => .ok .stepDacForce
  | _ => .error (.wordTooWide .step)

/-- Format EVENT (R330): a 5-bit index of a bit of a delayed-event mask. -/
def decodeEvent (b : Byte) : Except DecodeError Instr :=
  match b.toNat with
  | 0 => .ok .evLoadHpos
  | 1 => .ok .evLoadCposReload
  | 2 => .ok .evLoadVsub
  | 3 => .ok .evIncVideoLine
  | 4 => .ok .evUpdateVsub
  | 5 => .ok .evSelectRenderer
  | 6 => .ok .evStopDma
  | 7 => .ok .evReserved7
  | 8 => .ok .evReserved8
  | 9 => .ok .evReserved9
  | 10 => .ok .evReserved10
  | 11 => .ok .evReserved11
  | 12 => .ok .evReserved12
  | 13 => .ok .evReserved13
  | 14 => .ok .evReserved14
  | 15 => .ok .evReserved15
  | 16 => .ok .evReserved16
  | 17 => .ok .evReserved17
  | 18 => .ok .evReserved18
  | 19 => .ok .evReserved19
  | 20 => .ok .evReserved20
  | 21 => .ok .evReserved21
  | 22 => .ok .evReserved22
  | 23 => .ok .evReserved23
  | 24 => .ok .evReserved24
  | 25 => .ok .evReserved25
  | 26 => .ok .evReserved26
  | 27 => .ok .evReserved27
  | 28 => .ok .evReserved28
  | 29 => .ok .evReserved29
  | 30 => .ok .evReserved30
  | 31 => .ok .evReserved31
  | _ => .error (.wordTooWide .event)

/-- Format RENDER (R340): a 5-bit key `blank ++ border ++ mode`. -/
def decodeRender (k : Byte) : Except DecodeError Instr :=
  if 32 ≤ k.toNat then .error (.wordTooWide .render)
  else if k.getLsbD 4 then .ok (.renderBlank (k.getLsbD 3) (k.extractLsb' 0 3))
  else if k.getLsbD 3 then .ok (.renderBorder (k.extractLsb' 0 3))
  else
    match k.toNat with
    | 0 => .ok .renderText
    | 1 => .ok .renderMcText
    | 2 => .ok .renderHiresBmp
    | 3 => .ok .renderMcBmp
    | 4 => .ok .renderEcmText
    | 5 => .ok .renderInvalid101
    | 6 => .ok .renderInvalid110
    | _ => .ok .renderInvalid111

/-- The operation that the bytes of a channel begin with, and the bytes after it. -/
def decode (f : Fmt) (bs : List Byte) : Except DecodeError (Instr × List Byte) :=
  match f, bs with
  | .bus, bs => decodeBus bs
  | _, [] => .error .truncated
  | .host, b :: rest => decodeHost b rest
  | .step, b :: rest => (decodeStep b).map (·, rest)
  | .event, b :: rest => (decodeEvent b).map (·, rest)
  | .render, b :: rest => (decodeRender b).map (·, rest)

/-- The bytes of a BUS read word (R300): bit 16 set. -/
def busReadBytes (a : Addr) : OpWord := ⟨.bus, encodeAddr a ++ [1#8]⟩

/-- The bytes of a BUS write word (R300): bit 16 clear, and the data byte. -/
def busWriteBytes (a : Addr) (v : Byte) : OpWord := ⟨.bus, encodeAddr a ++ [0#8, v]⟩

/-- The bytes of a host call (R310). -/
def hostBytes (sel : Byte) (operands : List Byte) : OpWord := ⟨.host, sel :: operands⟩

def encodeRomBytes : Option (List Byte) → List Byte
  | none => [0#8]
  | some data => 1#8 :: encodeNat data.length ++ data

/-- The bytes of an operation, written from the same tables as the decoder. -/
def encode : Instr → OpWord
  | .rdFF00 => busReadBytes 0xFF00#16
  | .rdFF01 => busReadBytes 0xFF01#16
  | .rdFF02 => busReadBytes 0xFF02#16
  | .rdFF03 => busReadBytes 0xFF03#16
  | .rdFF04 => busReadBytes 0xFF04#16
  | .rdFF05 => busReadBytes 0xFF05#16
  | .rdFF06 => busReadBytes 0xFF06#16
  | .rdFF07 => busReadBytes 0xFF07#16
  | .rdFF08 => busReadBytes 0xFF08#16
  | .rdFF09 => busReadBytes 0xFF09#16
  | .rdFF0A => busReadBytes 0xFF0A#16
  | .rdFF0B => busReadBytes 0xFF0B#16
  | .rdFF0C => busReadBytes 0xFF0C#16
  | .rdFF0D => busReadBytes 0xFF0D#16
  | .rdFF0E => busReadBytes 0xFF0E#16
  | .rdFF0F => busReadBytes 0xFF0F#16
  | .rdFF10 => busReadBytes 0xFF10#16
  | .rdFF11 => busReadBytes 0xFF11#16
  | .rdFF12 => busReadBytes 0xFF12#16
  | .rdFF13 => busReadBytes 0xFF13#16
  | .rdFF14 => busReadBytes 0xFF14#16
  | .rdFF15 => busReadBytes 0xFF15#16
  | .rdFF16 => busReadBytes 0xFF16#16
  | .rdFF17 => busReadBytes 0xFF17#16
  | .rdFF18 => busReadBytes 0xFF18#16
  | .rdFF19 => busReadBytes 0xFF19#16
  | .rdFF1A => busReadBytes 0xFF1A#16
  | .rdFF1B => busReadBytes 0xFF1B#16
  | .rdFF1C => busReadBytes 0xFF1C#16
  | .rdFF1D => busReadBytes 0xFF1D#16
  | .rdFF1E => busReadBytes 0xFF1E#16
  | .rdFF1F => busReadBytes 0xFF1F#16
  | .wrFF00 v => busWriteBytes 0xFF00#16 v
  | .wrFF01 v => busWriteBytes 0xFF01#16 v
  | .wrFF02 v => busWriteBytes 0xFF02#16 v
  | .wrFF03 v => busWriteBytes 0xFF03#16 v
  | .wrFF04 v => busWriteBytes 0xFF04#16 v
  | .wrFF05 v => busWriteBytes 0xFF05#16 v
  | .wrFF06 v => busWriteBytes 0xFF06#16 v
  | .wrFF07 v => busWriteBytes 0xFF07#16 v
  | .wrFF08 v => busWriteBytes 0xFF08#16 v
  | .wrFF09 v => busWriteBytes 0xFF09#16 v
  | .wrFF0A v => busWriteBytes 0xFF0A#16 v
  | .wrFF0B v => busWriteBytes 0xFF0B#16 v
  | .wrFF0C v => busWriteBytes 0xFF0C#16 v
  | .wrFF0D v => busWriteBytes 0xFF0D#16 v
  | .wrFF0E v => busWriteBytes 0xFF0E#16 v
  | .wrFF0F v => busWriteBytes 0xFF0F#16 v
  | .wrFF10 v => busWriteBytes 0xFF10#16 v
  | .wrFF11 v => busWriteBytes 0xFF11#16 v
  | .wrFF12 v => busWriteBytes 0xFF12#16 v
  | .wrFF13 v => busWriteBytes 0xFF13#16 v
  | .wrFF14 v => busWriteBytes 0xFF14#16 v
  | .wrFF15 v => busWriteBytes 0xFF15#16 v
  | .wrFF16 v => busWriteBytes 0xFF16#16 v
  | .wrFF17 v => busWriteBytes 0xFF17#16 v
  | .wrFF18 v => busWriteBytes 0xFF18#16 v
  | .wrFF19 v => busWriteBytes 0xFF19#16 v
  | .wrFF1A v => busWriteBytes 0xFF1A#16 v
  | .wrFF1B v => busWriteBytes 0xFF1B#16 v
  | .wrFF1C v => busWriteBytes 0xFF1C#16 v
  | .wrFF1D v => busWriteBytes 0xFF1D#16 v
  | .wrFF1E v => busWriteBytes 0xFF1E#16 v
  | .wrFF1F v => busWriteBytes 0xFF1F#16 v
  | .wrFF3E v => busWriteBytes 0xFF3E#16 v
  | .wrFF3F v => busWriteBytes 0xFF3F#16 v
  | .wrFDDx x v => busWriteBytes (0xFDD#12 ++ x) v
  | .ioRdFD lo => busReadBytes (0xFD#8 ++ lo)
  | .ioRdFE lo => busReadBytes (0xFE#8 ++ lo)
  | .ioWrFD lo v => busWriteBytes (0xFD#8 ++ lo) v
  | .ioWrFE lo v => busWriteBytes (0xFE#8 ++ lo) v
  | .memRd a => busReadBytes a
  | .memWr a v => busWriteBytes a v
  | .hostConfigureRAM size fp => hostBytes 0x0#8 (encodeInt size ++ encodeNat fp)
  | .hostLoadROM bank offset length data => hostBytes 0x1#8 (encodeInt bank ++ encodeInt offset ++ encodeInt length ++ encodeRomBytes data)
  | .hostResolve kind a => hostBytes 0x2#8 (kindCode kind :: encodeAddr a)
  | .hostGetSegmentKind slot => hostBytes 0x3#8 (encodeInt slot)
  | .hostRun ticks => hostBytes 0x4#8 (encodeInt ticks)
  | .hostReset cold => hostBytes 0x5#8 ([if cold then 1#8 else 0#8])
  | .hostSaveState => hostBytes 0x6#8 []
  | .hostLoadState k => hostBytes 0x7#8 (encodeNat k)
  | .hostRegisterCallback cb ud => hostBytes 0x8#8 (encodeNat cb ++ encodeNat ud)
  | .hostWriteRegister o v => hostBytes 0x9#8 ([o.setWidth 8, v])
  | .hostReadRegister o => hostBytes 0xA#8 ([o.setWidth 8])
  | .hostReservedB => hostBytes 0xB#8 []
  | .hostReservedC => hostBytes 0xC#8 []
  | .hostReservedD => hostBytes 0xD#8 []
  | .hostReservedE => hostBytes 0xE#8 []
  | .hostReservedF => hostBytes 0xF#8 []
  | .stepPhaseEven => ⟨.step, [0#8]⟩
  | .stepPhaseOdd => ⟨.step, [1#8]⟩
  | .stepSoundTick => ⟨.step, [2#8]⟩
  | .stepDacForce => ⟨.step, [3#8]⟩
  | .evLoadHpos => ⟨.event, [0#8]⟩
  | .evLoadCposReload => ⟨.event, [1#8]⟩
  | .evLoadVsub => ⟨.event, [2#8]⟩
  | .evIncVideoLine => ⟨.event, [3#8]⟩
  | .evUpdateVsub => ⟨.event, [4#8]⟩
  | .evSelectRenderer => ⟨.event, [5#8]⟩
  | .evStopDma => ⟨.event, [6#8]⟩
  | .evReserved7 => ⟨.event, [7#8]⟩
  | .evReserved8 => ⟨.event, [8#8]⟩
  | .evReserved9 => ⟨.event, [9#8]⟩
  | .evReserved10 => ⟨.event, [10#8]⟩
  | .evReserved11 => ⟨.event, [11#8]⟩
  | .evReserved12 => ⟨.event, [12#8]⟩
  | .evReserved13 => ⟨.event, [13#8]⟩
  | .evReserved14 => ⟨.event, [14#8]⟩
  | .evReserved15 => ⟨.event, [15#8]⟩
  | .evReserved16 => ⟨.event, [16#8]⟩
  | .evReserved17 => ⟨.event, [17#8]⟩
  | .evReserved18 => ⟨.event, [18#8]⟩
  | .evReserved19 => ⟨.event, [19#8]⟩
  | .evReserved20 => ⟨.event, [20#8]⟩
  | .evReserved21 => ⟨.event, [21#8]⟩
  | .evReserved22 => ⟨.event, [22#8]⟩
  | .evReserved23 => ⟨.event, [23#8]⟩
  | .evReserved24 => ⟨.event, [24#8]⟩
  | .evReserved25 => ⟨.event, [25#8]⟩
  | .evReserved26 => ⟨.event, [26#8]⟩
  | .evReserved27 => ⟨.event, [27#8]⟩
  | .evReserved28 => ⟨.event, [28#8]⟩
  | .evReserved29 => ⟨.event, [29#8]⟩
  | .evReserved30 => ⟨.event, [30#8]⟩
  | .evReserved31 => ⟨.event, [31#8]⟩
  | .renderText => ⟨.render, [0#8]⟩
  | .renderMcText => ⟨.render, [1#8]⟩
  | .renderHiresBmp => ⟨.render, [2#8]⟩
  | .renderMcBmp => ⟨.render, [3#8]⟩
  | .renderEcmText => ⟨.render, [4#8]⟩
  | .renderInvalid101 => ⟨.render, [5#8]⟩
  | .renderInvalid110 => ⟨.render, [6#8]⟩
  | .renderInvalid111 => ⟨.render, [7#8]⟩
  | .renderBlank border mode => ⟨.render, [1#4 ++ (BitVec.ofBool border ++ mode)]⟩
  | .renderBorder mode => ⟨.render, [1#5 ++ mode]⟩

/-- The bytes of a table word of `nbits` bits: bit 0 is bit 0 of the first byte. -/
def wordBytes : Nat → Nat → List Byte
  | 0, _ => []
  | n + 1, w => BitVec.ofNat 8 w :: wordBytes n (w / 256)

/-- The channel of a table word. The table's rows of the formats HOST, STEP, EVENT and RENDER share their bit patterns
(R302 keeps them apart by format), and a word alone does not say which is meant: a word of 17 bits or more is BUS; of
the one-byte words those below 16 are read as HOST, the rest as EVENT; a width below one byte names its format
(log 16). -/
def tableFmt (nbits w : Nat) : Fmt :=
  if 16 < nbits then .bus
  else if nbits ≤ 2 then .step
  else if nbits ≤ 4 then .host
  else if nbits = 5 then .event
  else if w < 16 then .host else .event

/-- A table word as a queued operation, every operand bit above the word zero. -/
def tableOp (nbits w : Nat) : OpWord :=
  ⟨tableFmt nbits w, wordBytes ((nbits + 7) / 8) w ++ List.replicate 32 0#8⟩

/-- The instruction the decoder reads from a table word (fixed name of the host's files). -/
def decodeTableWord (nbits w : Nat) : Option Instr :=
  let op := tableOp nbits w
  match decode op.fmt op.bytes with
  | .ok (i, _) => some i
  | .error _ => none

end Sys2Proof
end

