-- ==== Sys2Proof/Machine/Types.lean ====
section
/-! DEFINITION. Machine.Types: the small types the state, the parameters and the free values are made of. -/

namespace Sys2Proof.Machine

/-- The two half-cycles of a cycle (R47). -/
inductive Phase where
  | even | odd
deriving DecidableEq, Repr, Inhabited

/-- The delay of a scheduled event (R710). -/
inductive Delay where
  | half | full
deriving DecidableEq, Repr, Inhabited

/-- What a cold reset does to RAM (R1201). -/
inductive ColdRam where
  | keep | refill
deriving DecidableEq, Repr, Inhabited

/-- The state that chooses the EVEN bus step (R125). -/
inductive BusMode where
  | cpuRun | cpuHaltReq | chipDma
deriving DecidableEq, Repr, Inhabited

/-- The selected renderer (R129). -/
inductive Renderer where
  | text | mcText | ecmText | hiresBmp | mcBmp | invalid
deriving DecidableEq, Repr, Inhabited

/-- What a render step renders with: the selected renderer, or one of the two override renderers (R930). -/
inductive RenderSel where
  | mode (r : Renderer) | blank | border
deriving DecidableEq, Repr

/-- A present slot of the SegmentTable (R101): a ROM segment, with the number of the draw that gives its unwritten
bytes (R413), or a RAM segment, with the size and fill pattern it was filled for (R400). An ABSENT slot is unlisted. -/
inductive Segment where
  | rom (draw : Nat)
  | ram (sizeKiB fillPattern : Nat)
deriving DecidableEq, Repr

/-- The answer of getSegmentKind (R430). -/
inductive SegKind where
  | none | rom | ram
deriving DecidableEq, Repr

/-- What the CURSOR and REVERSE flags of a loaded character are computed from (R911), besides its code: RVSOFF and the
cursor position as they were at the load, and the character's position. The model's own (log 27). -/
structure FlagInputs where
  rvsOff : Bool
  cursor : BitVec 10
  charPos : BitVec 10
deriving DecidableEq, Repr, Inhabited

/-- The VideoShiftRegister (R150): its four bytes, and the model's own `loaded`, which goes with the flags byte so that a
renderer can tell a register written since the load (R1231, log 27). -/
structure ShiftReg where
  attr : Byte
  char : Byte
  bitmap : Byte
  flags : Byte
  loaded : FlagInputs
deriving DecidableEq, Repr, Inhabited

/-- The four colour bytes of a pixel group, in display order (R900). -/
structure Group where
  c0 : Byte
  c1 : Byte
  c2 : Byte
  c3 : Byte
deriving DecidableEq, Repr, Inhabited

/-- A SoundChannelState (R160). -/
structure Channel where
  cnt : BitVec 10
  reload : BitVec 10
  decay : Nat
  latch : Bool
  silent : Bool
deriving DecidableEq, Repr, Inhabited

/-- The three timers (R140). -/
structure Timers where
  tmr1 : BitVec 16
  tmr2 : BitVec 16
  tmr3 : BitVec 16
  latch1 : BitVec 16
  run1 : Bool
  run2 : Bool
  run3 : Bool
deriving DecidableEq, Repr, Inhabited

/-- The chip's fetches (R905, R906, R907). -/
inductive Fetch where
  | attr | char | bitmap
deriving DecidableEq, Repr

/-- What an external handler of the I/O range answers to a read (R593): a device's byte, no driven bus, or the memory
access to the address. -/
inductive IoAnswer where
  | byte (v : Byte) | openBus | memory
deriving DecidableEq, Repr, Inhabited

/-- `P_DAC_STATE` of one channel (R1010); `cnt = none` is the channel's reload value. -/
structure DacState where
  cnt : Option (BitVec 10)
  latch : Bool
  decay : Nat
  silent : Bool
deriving DecidableEq, Repr

/-- `P_FLAGS_LAYOUT`, the bit of each flag in the flags byte of a record (R951). -/
structure FlagsLayout where
  solid : Fin 8
  hBlank : Fin 8
  vBlank : Fin 8
  hSync : Fin 8
  vSync : Fin 8
  border : Fin 8
deriving DecidableEq, Repr

/-- A `P_MEMORY_MAP` for one RAM size, with its RAMSET (R220, R402): `entries` lists ((key, slot), segment), and what is
not listed is ABSENT. -/
structure SizeMap where
  sizeKiB : Nat
  ramSet : List Nat
  entries : List ((Nat × Nat) × Nat)
deriving DecidableEq, Repr

/-- A `P_MEMORY_MAP` given as data: the segment of each ROM bank (R410), and a map for each RAM size. -/
structure MemoryMap where
  romSeg : List Nat
  sizes : List SizeMap
deriving DecidableEq, Repr

/-- One value for every `P_RESET_*` draw of R1202. `column` counts column pairs, since the drawn column is even;
`line` and the channels' `decay` are brought into their ranges where they are used. -/
structure ResetDraws where
  bus : Byte
  regs : Vector Byte 32
  column : Fin 57
  line : BitVec 9
  scWin : Bool
  winH : Bool
  winV : Bool
  hBlank : Bool
  vBlank : Bool
  hSync : Bool
  vSync : Bool
  refresh : Bool
  renderer : Renderer
  charSub : BitVec 3
  flashCnt : BitVec 4
  charPos : BitVec 10
  charCol : Fin 41
  tmr : Timers
  irqStat : Byte
  sr : ShiftReg
  fetched : Byte
  attrBuf : Vector Byte 40
  charBuf : Vector Byte 40
  attrCur : Vector Byte 40
  ch1 : Channel
  ch2 : Channel
  kbd : Byte
deriving DecidableEq, Repr, Inhabited

end Sys2Proof.Machine
end

