-- ==== Sys2Proof/Config.lean ====
section
/-! DEFINITION. Config: the constants the source fixes (R20) and the free values, which have no body: nothing can be
proved of them that does not hold for every value. -/

namespace Sys2Proof.Config

open Sys2Proof.Machine

/-- R20 (1) `SEG_SIZE`. -/
def segSize : Nat := 16384
/-- R20 (2) `SEG_SLOTS`. -/
def segSlots : Nat := 256
/-- R20 (6) `TICKS_PAL`. -/
def ticksPal : Int := 20
/-- R20 (7) `TICKS_NTSC`. -/
def ticksNtsc : Int := 16
/-- R20 (10) `OUTBUF_SIZE`. -/
def outbufSize : Nat := 464
/-- R20 (11) `OUTBUF_THRESHOLD`. -/
def outbufThreshold : Nat := 450
/-- R20 (14) `MIX_ENTRIES`. -/
def mixEntries : Nat := 128
/-- R20 (15) `VOL_ENTRIES`. -/
def volEntries : Nat := 16
/-- R20 (16) `DIST_ENTRIES`. -/
def distEntries : Nat := 301
/-- R20 (18) `RAM_SIZES`, in KiB. -/
def ramSizes : List Nat := [16, 32, 64, 256, 1024]
/-- R20 (17) `LEVEL_MAX`. -/
def levelMax : Nat := 150

/-- `P_RAM_FILL(S, fillPattern, segment, offset)` (R403): OPEN, any deterministic function (log 5). -/
opaque ramFill : Nat → Nat → Nat → Nat → Byte

/-- `P_ROM_INIT(segment, offset)` of the creation with the given draw number (R413): a draw (log 6). -/
opaque romInit : Nat → Nat → Nat → Byte

/-- `P_KEYBOARD_IN(kbdLatch)` at the draw with the given number (R558): a free input of the read (log 7). -/
opaque keyboardIn : Nat → Byte → Byte

/-- The colour of a pixel of the INVALID renderer, by draw number; bit 7 is cleared where it is used (R926, log 8). -/
opaque invalidColour : Nat → Byte

/-- The colour of a pixel that belongs to the next character, by draw number (R916, log 8). -/
opaque straddleColour : Nat → Byte

/-- `P_ALLOC_OK` by draw number, where the host side supplies no value (R404, log 9). -/
opaque allocOk : Nat → Bool

/-- The `P_RESET_*` draws by draw number, where the host side supplies no values (R1202, log 2). -/
opaque resetDraw : Nat → ResetDraws

end Sys2Proof.Config
end

