-- ==== Sys2Proof/Machine/Params.lean ====
section
/-! DEFINITION. Machine.Params: the parameters of R22 and the values the spec gives them by default. -/

namespace Sys2Proof.Machine

/-- The parameters of R22. They are no state of the chip (R173): no step writes them. They stand in the chip's record so
that a statement over all states holds for every value of them. Values, tables and layouts are data (log 3). A parameter
that is a function of the whole state, or an external handler, is given by a number: `none` is the spec's default, and
`some k` the k-th of the functions without a body in Machine.Open (log 4). -/
structure Params where
  /-- `P_LINES(PAL)` -/
  linesPal : Nat
  /-- `P_LINES(NTSC)` -/
  linesNtsc : Nat
  /-- `P_EVENT_DELAY(W_MODE)` (R508) -/
  delayMode : Delay
  /-- `P_EVENT_DELAY(W_CPOS)` -/
  delayCpos : Delay
  /-- `P_EVENT_DELAY(W_HPOS)` -/
  delayHpos : Delay
  /-- `P_EVENT_DELAY(W_VSUB)` -/
  delayVsub : Delay
  /-- `P_EVENT_ORDER` (R330, R720) -/
  eventOrder : List Nat
  /-- `P_ALWAYS_SET` (R502) -/
  alwaysSet : Vector Byte 32
  /-- `P_HPOS_READ`, by column (R580) -/
  hposRead : List Byte
  /-- `P_HPOS_WRITE(v, EVEN)`, by the value written (R740) -/
  hposWriteEven : List Nat
  /-- `P_HPOS_WRITE(v, ODD)` -/
  hposWriteOdd : List Nat
  /-- `P_SLOT_RANGES`, first and last address of each slot (R210) -/
  slotRanges : List (Addr × Addr)
  /-- `P_KEY_LAYOUT`: the place in the key of each bit of R212, from its bit 0 on -/
  keyLayout : List Nat
  /-- `P_MEMORY_MAP` with its RAMSET and ROMSEG (R220, R402, R410); `none`: the defaults of those rules -/
  memoryMap : Option MemoryMap
  /-- `P_EXP_BANK` (R106) -/
  expBank : BitVec 6
  /-- `P_COLD_RAM` (R1201) -/
  coldRam : ColdRam
  /-- `P_CPU_MULT` (R830) -/
  cpuMult : Int
  /-- `P_FLASH_ON`, bit k for the flash count k (R22) -/
  flashOn : BitVec 16
  /-- `P_FLAGS_LAYOUT` (R951) -/
  flagsLayout : FlagsLayout
  /-- `P_RELOAD`, by frequency (R1002) -/
  reload : List (BitVec 10)
  /-- `P_DECAY_TICKS` (R1021) -/
  decayTicks : Nat
  /-- `P_LFSR`: width, the mask of the taps, the seed (R1022) -/
  lfsrWidth : Nat
  lfsrTaps : Nat
  lfsrSeed : Nat
  /-- `P_DAC_STATE` of the two channels (R1010) -/
  dac1 : DacState
  dac2 : DacState
  /-- `P_MIX` (R1031) -/
  mix : List Nat
  /-- `P_VOL` (R1032) -/
  vol : List Nat
  /-- `P_SCALE`, a row for each mix level, in it an entry for each volume (R1030, R1032) -/
  scale : List (List Nat)
  /-- `P_DIST` (R1033), signed 16-bit entries -/
  dist : List (BitVec 16)
  /-- `P_COLUMN_TABLE` (R812, R813) -/
  columnLaw : Option Nat
  /-- `P_INC_LINE` (R743) -/
  incLineLaw : Option Nat
  /-- `P_VSUB_UPDATE` (R744) -/
  vsubLaw : Option Nat
  /-- `P_FETCH_ADDR` (R905, R906, R907) -/
  fetchLaw : Option Nat
  /-- `P_SR_FLAGS` (R911) -/
  srFlagsLaw : Option Nat
  /-- `P_REM` (R915) -/
  remLaw : Option Nat
  /-- `P_PIXEL` (R920-R928) -/
  pixelLaw : Option Nat
  /-- `P_IO_READ` (R593) -/
  ioReadLaw : Option Nat
  /-- `P_IO_WRITE` (R593) -/
  ioWriteLaw : Option Nat
deriving DecidableEq, Repr

/-! ## The tables, as functions -/

/-- `P_RELOAD(f)` (R1002). -/
def Params.reloadOf (p : Params) (freq : BitVec 10) : BitVec 10 := p.reload.getD freq.toNat 0

/-- `P_SCALE(m, vol)` (R1030). -/
def Params.scaleOf (p : Params) (m vol : Nat) : Nat := (p.scale.getD m []).getD vol 0

/-- `P_HPOS_WRITE(v, phase)` (R740). -/
def Params.hposWrite (p : Params) (v : Byte) : Phase → Nat
  | .even => p.hposWriteEven.getD v.toNat 0
  | .odd => p.hposWriteOdd.getD v.toNat 0

/-- The map of a RAM size (R220). -/
def MemoryMap.ofSize (t : MemoryMap) (size : Nat) : Option SizeMap := t.sizes.find? fun m => m.sizeKiB == size

/-! ## Defaults -/

/-- `P_ALWAYS_SET`, default of R502. -/
def defaultAlwaysSet : Vector Byte 32 :=
  #v[0x00, 0x00, 0x00, 0x00, 0x00, 0x00, 0x00, 0x00, 0x00, 0x21, 0xA0, 0x00, 0xFC, 0x00, 0x00, 0x00,
     0xFC, 0x00, 0xC0, 0x00, 0x07, 0x80, 0x80, 0x80, 0x80, 0x80, 0xFC, 0x00, 0xFE, 0x00, 0x00, 0x80]

/-- `P_HPOS_READ`, default of R580. -/
def defaultHposRead (col : Nat) : Byte := BitVec.ofNat 8 (2 * col)

/-- `P_HPOS_WRITE`, default of R740: `((v >> 1) & 0x7E) | parity` of a byte `v`, with the parity of the phase. -/
def defaultHposWrite (parity v : Nat) : Nat := 2 * (v / 4) + parity

/-- `P_SLOT_RANGES`, default of R210. -/
def defaultSlotRanges : List (Addr × Addr) :=
  [(0x0000, 0x0FFF), (0x1000, 0x3FFF), (0x4000, 0x7FFF), (0x8000, 0xBFFF), (0xC000, 0xFBFF), (0xFC00, 0xFCFF),
   (0xFD00, 0xFEFF), (0xFF00, 0xFFFF)]

/-- `P_RELOAD`, default of R1002. -/
def defaultReload (f : Nat) : BitVec 10 := 0x3FF#10 - BitVec.ofNat 10 f

/-- `P_MIX`, default of R1031: channel 1's bit if enabled, and channel 2's tone if enabled, else its noise if enabled.
The bits of the index are those of R1030. -/
def defaultMix (idx : Nat) : Nat :=
  let v1 := idx.testBit 3 && idx.testBit 0
  let v2 := if idx.testBit 4 then idx.testBit 1 else idx.testBit 5 && idx.testBit 2
  v1.toNat + v2.toNat

/-- `P_SCALE`, default of R1032. -/
def defaultScale (m vol : Nat) : Nat := m * vol * 75 / 8

/-- `P_DIST`, default of R1033. -/
def defaultDist (s : Nat) : BitVec 16 := BitVec.ofInt 16 (200 * (s : Int) - 30000)

/-- `P_DAC_STATE`, default of R1010. -/
def defaultDac : DacState := ⟨none, true, 0, false⟩

/-- The spec's default of every parameter; where R22 says OPEN and gives none (`P_EVENT_DELAY`, `P_COLD_RAM`,
`P_CPU_MULT`) the values of the start state of 95_test_vectors.md section 2 (log 3). -/
def Params.default : Params where
  linesPal := 312
  linesNtsc := 262
  delayMode := .half
  delayCpos := .half
  delayHpos := .half
  delayVsub := .half
  eventOrder := List.range 32
  alwaysSet := defaultAlwaysSet
  hposRead := (List.range 114).map defaultHposRead
  hposWriteEven := (List.range 256).map (defaultHposWrite 0)
  hposWriteOdd := (List.range 256).map (defaultHposWrite 1)
  slotRanges := defaultSlotRanges
  keyLayout := List.range 12
  memoryMap := none
  expBank := 0
  coldRam := .keep
  cpuMult := 1
  flashOn := 0xFF00
  flagsLayout := ⟨0, 1, 2, 3, 4, 5⟩
  reload := (List.range 1024).map defaultReload
  decayTicks := 1024
  lfsrWidth := 8
  lfsrTaps := 0xB8
  lfsrSeed := 0xFF
  dac1 := defaultDac
  dac2 := defaultDac
  mix := (List.range 128).map defaultMix
  vol := (List.range 16).map (fun v => min v 8)
  scale := (List.range 3).map fun m => (List.range 9).map (defaultScale m)
  dist := (List.range 301).map defaultDist
  columnLaw := none
  incLineLaw := none
  vsubLaw := none
  fetchLaw := none
  srFlagsLaw := none
  remLaw := none
  pixelLaw := none
  ioReadLaw := none
  ioWriteLaw := none

/-! ## The values the spec admits -/

/-- `P_EVENT_ORDER` is a permutation of the micro-operations that keeps bit 3 before bit 4 (R22, R721). -/
def eventOrderOk (l : List Nat) : Bool :=
  decide (l.length = 32) && (List.range 32).all (fun b => l.contains b) && decide (l.idxOf 3 < l.idxOf 4)

/-- The horizontal-position tables have an entry for every column and every value, and a column written in a phase has
the parity of the phase (R121, R740) or does not exist (R747). -/
def hposOk (p : Params) : Bool :=
  decide (p.hposRead.length = 114) && decide (p.hposWriteEven.length = 256) && decide (p.hposWriteOdd.length = 256) &&
  p.hposWriteEven.all (fun c => decide (c % 2 = 0) || decide (114 ≤ c)) &&
  p.hposWriteOdd.all (fun c => decide (c % 2 = 1) || decide (114 ≤ c))

/-- Eight address ranges without overlap that cover the 65536 addresses (R210, R211). -/
def slotRangesOk (l : List (Addr × Addr)) : Bool :=
  decide (l.length = 8) && l.all (fun r => decide (r.1.toNat ≤ r.2.toNat)) &&
  decide (l.Pairwise fun r q => r.2.toNat < q.1.toNat ∨ q.2.toNat < r.1.toNat) &&
  decide ((l.map fun r => r.2.toNat + 1 - r.1.toNat).sum = 0x10000)

/-- Twelve places of the key, all different (R212). -/
def keyLayoutOk (l : List Nat) : Bool := decide (l.length = 12) && (List.range 12).all fun b => l.contains b

/-- A map for one RAM size names slots of the SegmentTable; its RAMSET is written in rising order. -/
def SizeMap.ok (m : SizeMap) : Bool :=
  decide (m.ramSet.Pairwise (· < ·)) && m.ramSet.all (fun i => decide (i < Config.segSlots)) &&
  m.entries.all fun e => decide (e.2 < Config.segSlots)

/-- A memory map has eight ROM segments and a map for each of RAM_SIZES. -/
def MemoryMap.ok (t : MemoryMap) : Bool :=
  decide (t.romSeg.length = 8) && t.romSeg.all (fun i => decide (i < Config.segSlots)) &&
  Config.ramSizes.all (fun s => (t.ofSize s).isSome) && t.sizes.all SizeMap.ok

/-- The flags of a record stand at different bits (R951). -/
def FlagsLayout.ok (f : FlagsLayout) : Bool :=
  decide [f.solid, f.hBlank, f.vBlank, f.hSync, f.vSync, f.border].Nodup

/-- The sound tables have the lengths of R20, and the scaling keeps every level in 0..150 (R1034). -/
def soundTablesOk (p : Params) : Bool :=
  decide (p.reload.length = 1024) && decide (p.mix.length = Config.mixEntries) &&
  decide (p.vol.length = Config.volEntries) && decide (p.dist.length = Config.distEntries) &&
  p.mix.all fun m => p.vol.all fun v =>
    decide (m < p.scale.length) && decide (v < (p.scale.getD m []).length) && decide (p.scaleOf m v ≤ Config.levelMax)

/-- The parameter values the spec admits: line counts 1..512 and a positive decay count (R22), a noise seed of the
register's width, a forced decay count in its range, and layouts and tables of their shape. -/
def Params.valid (p : Params) : Bool :=
  decide (1 ≤ p.linesPal) && decide (p.linesPal ≤ 512) && decide (1 ≤ p.linesNtsc) && decide (p.linesNtsc ≤ 512) &&
  decide (1 ≤ p.decayTicks) && decide (p.lfsrSeed < 2 ^ p.lfsrWidth) &&
  decide (p.dac1.decay ≤ p.decayTicks) && decide (p.dac2.decay ≤ p.decayTicks) &&
  eventOrderOk p.eventOrder && hposOk p && slotRangesOk p.slotRanges && keyLayoutOk p.keyLayout &&
  p.memoryMap.all MemoryMap.ok && p.flagsLayout.ok && soundTablesOk p

end Sys2Proof.Machine
end

