-- ==== Sys2Proof/Machine/Parts.lean ====
section
/-! DEFINITION. Machine.Parts: the groups of state of R100, the chip made of them, and a snapshot of it. -/

namespace Sys2Proof.Machine

/-- The memory unit's storage (R101, R102). `segs` lists the present segments by index; `cells` lists the bytes that have
been written since their segment was filled, at address `index * 16384 + offset`. Both are strictly rising. The
MemoryMapTable (R103) is a function of `ramSizeKiB` and is recomputed (R221). -/
structure Memory where
  segs : List (Nat × Segment)
  cells : List Host.Cell
  ramSizeKiB : Option Nat
  fillPattern : Option Nat
deriving DecidableEq, Repr

/-- The bank-switching latches and the bus value (R104-R107). -/
structure Latches where
  cpuRomOn : Bool
  romBankLo : BitVec 2
  romBankHi : BitVec 2
  expBank : BitVec 6
  busValue : Byte
deriving DecidableEq, Repr

/-- The register file, the pending values and the two delayed-event masks (R110, R112, R113). -/
structure RegFile where
  regs : Vector Byte 32
  pend1A : Option Byte
  pend1B : Option Byte
  pend1E : Option Byte
  pend1F : Option Byte
  evEven : BitVec 32
  evOdd : BitVec 32
deriving DecidableEq, Repr

/-- The sequencer (R120-R132), but for the tick budget, which belongs to run() (R123). -/
structure Sequencer where
  phase : Phase
  column : Fin 114
  videoLine : BitVec 9
  sndPrescale : BitVec 3
  busMode : BusMode
  scWin : Bool
  winH : Bool
  winV : Bool
  hBlank : Bool
  vBlank : Bool
  hSync : Bool
  vSync : Bool
  refresh : Bool
  renderer : Renderer
  charSub : BitVec 3
  flashCnt : BitVec 4
  charPos : BitVec 10
  charCol : Fin 41
  ntsc : Bool
deriving DecidableEq, Repr

/-- The interrupt status and the level last driven on the CPU's IRQ input (R145). -/
structure Interrupts where
  stat : Byte
  line : Bool
deriving DecidableEq, Repr

/-- The video pipeline (R150-R153). `outBuf` holds the bytes `outBuf[0 .. outPos-1]`; the bytes at and above `outPos`
are never observed (R153), so they are not held (log 22). -/
structure Video where
  sr : ShiftReg
  fetched : Byte
  attrBuf : Vector Byte 40
  charBuf : Vector Byte 40
  attrCur : Vector Byte 40
  outBuf : List Byte
deriving DecidableEq, Repr

/-- The sound unit (R160-R162). -/
structure Sound where
  ch1 : Channel
  ch2 : Channel
  lfsr : Nat
  prevLevel : Nat
deriving DecidableEq, Repr

/-- What the external CPU does at one CPU bus step: nothing, a read, or a write (R835). -/
inductive CpuLine where
  | nop
  | rd (a : Addr)
  | wr (a : Addr) (v : Byte)
deriving DecidableEq, Repr

/-- The observable calls of R45, the CPU's bus accesses, and the callbacks of R850. -/
inductive Event where
  | runRdyHigh (mult : Int)
  | runRdyLow (mult : Int)
  | setIsCPURunning (on : Bool)
  | interruptRequest (level : Bool)
  | cpuReset (cold : Bool)
  | cpuRead (a : Addr) (v : Byte)
  | cpuWrite (a : Addr) (v : Byte)
  | video (bytes : List Byte) (count : Nat)
  | ntsc (isNtsc : Bool)
  | sample (level : BitVec 16)
  | callback (cb userData : Nat) (phase : Phase) (column : Fin 114)
deriving DecidableEq, Repr

/-- The inputs from outside that a half-cycle consumes. -/
structure Inputs where
  cpuScript : List CpuLine
deriving DecidableEq, Repr

/-- The chip: everything its own half-cycles read or write. `cfg`, `inp`, `draws` and `trace` are the model's own
fields (INVENTORY.md, State). -/
structure Chip where
  mem : Memory
  lat : Latches
  rf : RegFile
  seq : Sequencer
  tmr : Timers
  irq : Interrupts
  vid : Video
  snd : Sound
  kbdLatch : Byte
  callbacks : List (Nat × Nat)
  refused : Bool
  cfg : Params
  inp : Inputs
  draws : Nat
  trace : List Event
deriving DecidableEq, Repr

/-- The elements of the chip's state that a parameter of R22 can depend on: all of R101-R172, but for the tick budget of
run() (R123, R804; log 4). -/
structure Elements where
  mem : Memory
  lat : Latches
  rf : RegFile
  seq : Sequencer
  tmr : Timers
  irq : Interrupts
  vid : Video
  snd : Sound
  kbdLatch : Byte
  callbacks : List (Nat × Nat)
  refused : Bool
deriving DecidableEq, Repr

/-- The elements of a chip. -/
def Chip.elements (c : Chip) : Elements where
  mem := c.mem
  lat := c.lat
  rf := c.rf
  seq := c.seq
  tmr := c.tmr
  irq := c.irq
  vid := c.vid
  snd := c.snd
  kbdLatch := c.kbdLatch
  callbacks := c.callbacks
  refused := c.refused

/-- A state change that a parameter of R22 gives (a transition of `P_COLUMN_TABLE`, and a part of `P_VSUB_UPDATE` and of
`P_INC_LINE`): a new value for every element of the chip that no rule of the spec gives to another operation alone, and the
events it schedules. What is not in it, and the rule for each, is in log 4. -/
structure StateChange where
  cpuRomOn : Bool
  romBankLo : BitVec 2
  romBankHi : BitVec 2
  evEven : BitVec 7
  evOdd : BitVec 7
  busMode : BusMode
  scWin : Bool
  winH : Bool
  winV : Bool
  hBlank : Bool
  vBlank : Bool
  hSync : Bool
  vSync : Bool
  refresh : Bool
  renderer : Renderer
  charSub : BitVec 3
  flashCnt : BitVec 4
  charPos : BitVec 10
  charCol : Fin 41
  sr : ShiftReg
  fetched : Byte
  attrBuf : Vector Byte 40
  charBuf : Vector Byte 40
  attrCur : Vector Byte 40
deriving DecidableEq, Repr, Inhabited

/-- What `P_VSUB_UPDATE` gives (R744): the reload registers 0x1A and 0x1B, and any state change. -/
structure RowUpdate where
  reloadHi : Byte
  reloadLo : Byte
  rest : StateChange
deriving DecidableEq, Repr, Inhabited

/-- What `P_INC_LINE` gives (R743): the new line, whether the raster compare raises its status bit, the reload registers
and any state change. -/
structure LineIncrement where
  line : BitVec 9
  raster : Bool
  row : RowUpdate
deriving DecidableEq, Repr, Inhabited

/-- The transitions a column table is made of (R812, R813): those of the default table, and any other state change. -/
inductive Transition where
  | charactersStart | windowStart | windowStop | singleClockStop
  | refreshStart | refreshStop | hBlankStart | hBlankStop | hSyncStart | hSyncStop
  | lineIncrement | blankAndSync | dmaRequest | dmaGrant
  | change (x : StateChange)
deriving DecidableEq, Repr

/-- A snapshot value (R190, R1210): every element of R102-R170, the RAM segments and their contents, and `refused`. -/
structure Snapshot where
  ram : Memory
  lat : Latches
  rf : RegFile
  seq : Sequencer
  tmr : Timers
  irq : Interrupts
  vid : Video
  snd : Sound
  kbdLatch : Byte
  tickBudget : Int
  refused : Bool
deriving DecidableEq, Repr

end Sys2Proof.Machine
end

