-- ==== Sys2Proof/Machine/Open.lean ====
section
/-! DEFINITION. Machine.Open: the parameters of R22 that are functions of the whole state, and the external handlers of
the I/O range, as free functions without a body: nothing can be proved of one that does not hold for every function.
The first argument is the number that the parameter's field in `Params` holds (log 4). -/

namespace Sys2Proof.Config

open Sys2Proof.Machine

/-- `P_COLUMN_TABLE(phase, column, state)` (R812). -/
opaque columnTable : Nat → Phase → Fin 114 → Elements → List Transition

/-- `P_INC_LINE(state)` (R743). -/
opaque incLine : Nat → Elements → LineIncrement

/-- `P_VSUB_UPDATE(state)` (R744). -/
opaque vsubUpdate : Nat → Elements → RowUpdate

/-- `P_FETCH_ADDR` (R905, R906, R907). -/
opaque fetchAddr : Nat → Fetch → Elements → Addr

/-- `P_SR_FLAGS(state)` (R911). -/
opaque srFlags : Nat → Elements → Byte

/-- The flags byte that another `P_SR_FLAGS` gives for the character in the shift register once RVSOFF or the cursor
position differ in the registers from those at the load (R911, R1231; log 27). -/
opaque srFlagsNow : Nat → ShiftReg → Vector Byte 32 → Byte

/-- `P_REM(phase, column, state)`, 0..8 (R915). -/
opaque pixelRem : Nat → Phase → Fin 114 → Elements → Fin 9

/-- `P_PIXEL(mode, sr, regs, flashCnt, rem)` (R900, R920-R928), blank and border among the modes; bit 7 of a colour is
cleared where it is used (R350). -/
opaque pixels : Nat → RenderSel → ShiftReg → Vector Byte 32 → BitVec 4 → Nat → Group

/-- `P_IO_READ(a)` (R593) at the draw with the given number: what the outside answers may differ at every read. -/
opaque ioRead : Nat → Nat → Addr → IoAnswer

/-- `P_IO_WRITE(a, v)` (R593) at the draw with the given number: whether a device takes the byte, so that no memory is
written. -/
opaque ioWrite : Nat → Nat → Addr → Byte → Bool

end Sys2Proof.Config
end

