-- ==== Sys2Proof/Machine/Reset.lean ====
section
/-! DEFINITION. Machine.Reset: the values of R1202 and the freshly created chip of R1203. -/

namespace Sys2Proof.Machine

/-- `P_LINES(std)`, the video lines per frame of a standard (R22, R132). -/
def Params.lines (p : Params) (ntsc : Bool) : Nat := if ntsc then p.linesNtsc else p.linesPal

/-- The drawn column is an even value 0..112 (R1202). -/
def evenColumn (k : Fin 57) : Fin 114 := ⟨2 * k.val, by omega⟩

/-- The drawn line lies in 0..P_LINES(std)-1 (R1202). -/
def drawnLine (lines : Nat) (l : BitVec 9) : BitVec 9 := BitVec.ofNat 9 (l.toNat % lines)

/-- A channel with its decay counter brought into 0..P_DECAY_TICKS (R160). -/
def boundedChannel (p : Params) (ch : Channel) : Channel := { ch with decay := min ch.decay p.decayTicks }

/-- Bit 6 of the drawn regs[0x07] is the video standard (R132). -/
def drawnNtsc (d : ResetDraws) : Bool := d.regs[7].getLsbD 6

/-- The latches after a reset (R1202): ROM on, banks 0. -/
def latchesAfterReset (p : Params) (d : ResetDraws) : Latches where
  cpuRomOn := true
  romBankLo := 0
  romBankHi := 0
  expBank := p.expBank
  busValue := d.bus

/-- The register file after a reset (R1202): nothing pending, both masks empty. -/
def regFileAfterReset (d : ResetDraws) : RegFile where
  regs := d.regs
  pend1A := none
  pend1B := none
  pend1E := none
  pend1F := none
  evEven := 0
  evOdd := 0

/-- The sequencer after a reset (R1202). -/
def sequencerAfterReset (p : Params) (d : ResetDraws) : Sequencer where
  phase := .even
  column := evenColumn d.column
  videoLine := drawnLine (p.lines (drawnNtsc d)) d.line
  sndPrescale := 0
  busMode := .cpuRun
  scWin := d.scWin
  winH := d.winH
  winV := d.winV
  hBlank := d.hBlank
  vBlank := d.vBlank
  hSync := d.hSync
  vSync := d.vSync
  refresh := d.refresh
  renderer := d.renderer
  charSub := d.charSub
  flashCnt := d.flashCnt
  charPos := d.charPos
  charCol := d.charCol
  ntsc := drawnNtsc d

/-- The video pipeline after a reset (R1202): the buffered bytes are discarded. The drawn flags stand for the drawn
registers and character position (log 27). -/
def videoAfterReset (d : ResetDraws) : Video where
  sr := { d.sr with loaded := ⟨d.regs[7].getLsbD 7, d.regs[0x0C].extractLsb' 0 2 ++ d.regs[0x0D], d.charPos⟩ }
  fetched := d.fetched
  attrBuf := d.attrBuf
  charBuf := d.charBuf
  attrCur := d.attrCur
  outBuf := []

/-- The sound unit after a reset (R1202): the LFSR at its seed, no previous level. -/
def soundAfterReset (p : Params) (d : ResetDraws) : Sound where
  ch1 := boundedChannel p d.ch1
  ch2 := boundedChannel p d.ch2
  lfsr := p.lfsrSeed
  prevLevel := 0

/-- The table of R1202: every element of the chip after a reset with the draws `d`; the segments, the RAM configuration,
the callbacks and the refused mark are unchanged. All eight bits of `irqStat` are drawn, as R1202 and I2 of
93_implementation_defined.md say, light-pen bit 2 among them, which I16 there holds at 0 (DESIGN CHOICE, log 25). -/
def Chip.afterReset (d : ResetDraws) (c : Chip) : Chip :=
  { c with
    lat := latchesAfterReset c.cfg d
    rf := regFileAfterReset d
    seq := sequencerAfterReset c.cfg d
    tmr := d.tmr
    irq := ⟨d.irqStat, false⟩
    vid := videoAfterReset d
    snd := soundAfterReset c.cfg d
    kbdLatch := d.kbd }

/-- The values `State.reset` takes for the `P_RESET_*` draws: zero, but for the two that the spec's own start state
(95_test_vectors.md section 2) gives otherwise, `charCol` 40 and `renderer` TEXT (log 1). -/
def namedResetDraws : ResetDraws where
  bus := 0
  regs := Vector.replicate 32 0
  column := 0
  line := 0
  scWin := false
  winH := false
  winV := false
  hBlank := false
  vBlank := false
  hSync := false
  vSync := false
  refresh := false
  renderer := .text
  charSub := 0
  flashCnt := 0
  charPos := 0
  charCol := 40
  tmr := ⟨0, 0, 0, 0, false, false, false⟩
  irqStat := 0
  sr := ⟨0, 0, 0, 0, ⟨false, 0, 0⟩⟩
  fetched := 0
  attrBuf := Vector.replicate 40 0
  charBuf := Vector.replicate 40 0
  attrCur := Vector.replicate 40 0
  ch1 := ⟨0, 0, 0, false, false⟩
  ch2 := ⟨0, 0, 0, false, false⟩
  kbd := 0

/-- A chip before its first reset (R1203): every segment ABSENT, no RAM configuration, no callback, not refused, and
every other element as after a reset with the draws `d`. -/
def Chip.created (p : Params) (d : ResetDraws) : Chip where
  mem := ⟨[], [], none, none⟩
  lat := latchesAfterReset p d
  rf := regFileAfterReset d
  seq := sequencerAfterReset p d
  tmr := d.tmr
  irq := ⟨d.irqStat, false⟩
  vid := videoAfterReset d
  snd := soundAfterReset p d
  kbdLatch := d.kbd
  callbacks := []
  refused := false
  cfg := p
  inp := ⟨[]⟩
  draws := 0
  trace := []

end Sys2Proof.Machine
end

