-- ==== Sys2Proof/Machine/State.lean ====
section
/-! DEFINITION. Machine.State: the machine's state, the reasons a step can stop, and the state at reset. Every piece of
state of 10_state.md is in Machine.Parts; the values of a reset are in Machine.Reset. -/

namespace Sys2Proof.Machine

/-- The two host errors and their numbers (R1100). -/
inductive HostError where
  | configurationError
  | invalidArgument
deriving DecidableEq, Repr

/-- What a host call returned. -/
inductive HostResult where
  | nothing
  | success
  | error (e : HostError)
  | ticks (n : Int)
  | openBus
  | loc (segment : Nat) (offset : BitVec 14)
  | kind (k : SegKind)
  | byte (v : Byte)
  | snapshot (index : Nat)
deriving DecidableEq, Repr

/-- A pending call of the host: the bytes of a table row, or the pseudo-operation `CYCLE n`, whose ticks are those of the
standard at the time of the call (R391). -/
inductive HostCall where
  | op (w : OpWord)
  | cycle (n : Nat)
deriving DecidableEq, Repr

/-- The host's side of the calls (the model's own fields). -/
structure HostSide where
  queue : List HostCall
  result : HostResult
  snapshots : List Snapshot
  allocDraws : List Bool
  resetDraws : List ResetDraws
deriving DecidableEq, Repr

/-- The machine: the chip, the tick carry of run() (R123), and the host's side. -/
structure State where
  chip : Chip
  tickBudget : Int
  host : HostSide
deriving DecidableEq, Repr

/-- The block raises no fault (R1120, R1121: no trap, no halted or lockup state), so there is no reason for one. -/
inductive Fault where
deriving DecidableEq, Repr

/-- Why a step has no next state. -/
inductive Refusal where
  /-- Raised by exec for an instruction that has no meaning yet. Safe: nothing can be proved of the run after it. -/
  | notModelled (mnemonic : String)
  /-- Raised by step when the queued bytes are no operation of their channel. Safe: the host's calls and the CPU's
  accesses are always operations (R301, R310), so no run of the block ends here. -/
  | undecodable (why : DecodeError)
  /-- Raised by loadState when its operand names no snapshot that the host holds: the operand of R1211 is a value that
  saveState returned. Safe: no behaviour of the chip is cut off (log 17). -/
  | noSnapshot (index : Nat)
deriving DecidableEq, Repr

/-- The machine right after creation, which R1203 gives the values of a reset: nothing configured, nothing queued. -/
def State.reset : State where
  chip := Chip.created Params.default namedResetDraws
  tickBudget := 0
  host := ⟨[], .nothing, [], List.replicate 8 true, [namedResetDraws]⟩

end Sys2Proof.Machine
end

