-- ==== Sys2Proof/Machine/Ops.lean ====
section
/-! DEFINITION. Machine.Ops: the named operations on registers, events, the trace and the segment storage. -/

namespace Sys2Proof.Machine

/-! ## Association lists with strictly rising keys -/

/-- The entry at key `a`, if one is listed. -/
def assocGet {α : Type} : List (Nat × α) → Nat → Option α
  | [], _ => none
  | (k, v) :: rest, a => if k = a then some v else assocGet rest a

/-- Sets the entry at key `a`, keeping the keys strictly rising. -/
def assocPut {α : Type} : List (Nat × α) → Nat → α → List (Nat × α)
  | [], a, v => [(a, v)]
  | (k, w) :: rest, a, v =>
    if a < k then (a, v) :: (k, w) :: rest
    else if a = k then (a, v) :: rest
    else (k, w) :: assocPut rest a v

/-- Keeps the entries whose key satisfies `p`. -/
def assocKeep {α : Type} (p : Nat → Bool) (m : List (Nat × α)) : List (Nat × α) := m.filter fun e => p e.1

/-- Puts every entry of the second list into the first. -/
def assocJoin {α : Type} (m : List (Nat × α)) : List (Nat × α) → List (Nat × α)
  | [] => m
  | (k, v) :: rest => assocJoin (assocPut m k v) rest

/-- Every key is above `lo`, and the keys strictly rise. -/
def risingFrom {α : Type} : Nat → List (Nat × α) → Bool
  | _, [] => true
  | lo, (k, _) :: rest => decide (lo ≤ k) && risingFrom (k + 1) rest

/-- The canonical form of an association list: the keys strictly rise. -/
def rising {α : Type} (m : List (Nat × α)) : Bool := risingFrom 0 m

/-! ## Segment storage -/

/-- The address of a segment's byte in `Memory.cells`. -/
def cellAddr (i off : Nat) : Nat := i * Config.segSize + off

/-- Whether a segment is a RAM segment. -/
def Segment.isRam : Segment → Bool
  | .ram _ _ => true
  | .rom _ => false

/-- What an unlisted byte of a present segment holds: the fill pattern of a RAM segment (R403), the draw of a ROM segment
(R413). An unlisted byte has no entry at all, so no entry can equal it (log 10). -/
def Segment.fill (i off : Nat) : Segment → Byte
  | .ram size fp => Config.ramFill size fp i off
  | .rom draw => Config.romInit draw i off

/-- The segment in slot `i`; `none` is ABSENT (R101). -/
def Memory.seg (m : Memory) (i : Nat) : Option Segment := assocGet m.segs i

/-- The byte of slot `i` at offset `off`; `none` when the slot is ABSENT. -/
def Memory.read (m : Memory) (i off : Nat) : Option Byte :=
  (m.seg i).map fun sg => (assocGet m.cells (cellAddr i off)).getD (sg.fill i off)

/-- Sets the byte of slot `i` at offset `off`. -/
def Memory.write (m : Memory) (i off : Nat) (v : Byte) : Memory :=
  { m with cells := assocPut m.cells (cellAddr i off) v }

/-- Whether slot `i` is a RAM segment. -/
def Memory.isRam (m : Memory) (i : Nat) : Bool := ((m.seg i).map Segment.isRam).getD false

/-- Forgets the written bytes of every slot that does not satisfy `p`. -/
def Memory.keepCells (p : Nat → Bool) (m : Memory) : Memory :=
  { m with cells := assocKeep (fun a => p (a / Config.segSize)) m.cells }

/-- Whether slot `i` is a ROM segment. -/
def Memory.isRom (m : Memory) (i : Nat) : Bool := ((m.seg i).map fun sg => !sg.isRam).getD false

/-- The canonical form: slots and byte addresses strictly rise, slot indices are below 256, and every listed byte belongs
to a present segment. -/
def Memory.wf (m : Memory) : Bool :=
  rising m.segs && rising m.cells && m.segs.all (fun e => decide (e.1 < Config.segSlots)) &&
  m.cells.all (fun e => (m.seg (e.1 / Config.segSize)).isSome)

/-! ## Registers (R42) -/

/-- `regs[o]`. -/
def Chip.reg (c : Chip) (o : Fin 32) : Byte := c.rf.regs[o]

/-- `regs[o] <- v`. -/
def Chip.setReg (c : Chip) (o : Fin 32) (v : Byte) : Chip :=
  { c with rf.regs := c.rf.regs.set o.val v o.isLt }

/-- `P_ALWAYS_SET[o]`. -/
def Chip.alwaysSet (c : Chip) (o : Fin 32) : Byte := c.cfg.alwaysSet[o]

/-- `pend[o]` (R112): NONE for every offset that has no delayed effect. -/
def Chip.pend (c : Chip) (o : Fin 32) : Option Byte :=
  if o = 0x1A then c.rf.pend1A
  else if o = 0x1B then c.rf.pend1B
  else if o = 0x1E then c.rf.pend1E
  else if o = 0x1F then c.rf.pend1F
  else none

/-! ## The bus value, the trace, the marks -/

/-- `busValue <- v` (R231). -/
def Chip.drive (c : Chip) (v : Byte) : Chip := { c with lat.busValue := v }

/-- An observable call, in call order (R45). -/
def Chip.emit (c : Chip) (e : Event) : Chip := { c with trace := e :: c.trace }

/-- `refuse(reason)` (R46): the sticky mark; execution continues (R1102). The reasons are TEST_MODE (R516), FREEZE
(R517), HPOS_RANGE (R747) and the reserved host selectors (R312). -/
def Chip.refuse (c : Chip) : Chip := { c with refused := true }

/-- Counts `n` free values as drawn, so that the next draw is a fresh one. -/
def Chip.drew (c : Chip) (n : Nat) : Chip := { c with draws := c.draws + n }

/-! ## Delayed events (R710) -/

/-- `other(P)` (R47). -/
def Phase.other : Phase → Phase
  | .even => .odd
  | .odd => .even

/-- The bit numbers of R330. -/
def evLoadHposBit : Nat := 0
def evLoadCposReloadBit : Nat := 1
def evLoadVsubBit : Nat := 2
def evIncVideoLineBit : Nat := 3
def evUpdateVsubBit : Nat := 4
def evSelectRendererBit : Nat := 5
def evStopDmaBit : Nat := 6

/-- `evMask[P]`. -/
def Chip.evMask (c : Chip) : Phase → BitVec 32
  | .even => c.rf.evEven
  | .odd => c.rf.evOdd

/-- `evMask[P] <- m`. -/
def Chip.setEvMask (c : Chip) (p : Phase) (m : BitVec 32) : Chip :=
  match p with
  | .even => { c with rf.evEven := m }
  | .odd => { c with rf.evOdd := m }

/-- The phase whose mask takes an event scheduled in phase `p` (R710): HALF the other, FULL the current one. -/
def Delay.target (d : Delay) (p : Phase) : Phase :=
  match d with
  | .half => p.other
  | .full => p

/-- `schedule(ev, d)` executed in phase `p` (R710). -/
def Chip.schedule (c : Chip) (p : Phase) (ev : Nat) (d : Delay) : Chip :=
  c.setEvMask (d.target p) (setBit (c.evMask (d.target p)) ev)

/-! ## Host side -/

/-- The result a host call returns. -/
def State.returns (s : State) (r : HostResult) : State := { s with host.result := r }

/-- `raise E` (R44, R1100): the error goes back to the caller and nothing else changes. -/
def State.raise (s : State) (e : HostError) : State := s.returns (.error e)

/-- The numeric code of a host error (R1100); 0 is success. -/
def HostError.code : HostError → Nat
  | .configurationError => 1
  | .invalidArgument => 2

/-- An operation of the chip alone. -/
def State.onChip (s : State) (f : Chip → Chip) : State := { s with chip := f s.chip }

/-- The outcome of an operation of the chip alone: it always has a next state. -/
def State.chipStep (s : State) (f : Chip → Chip) : Host.Outcome State Fault Refusal := .next (s.onChip f)

end Sys2Proof.Machine
end

