-- ==== Sys2Proof/Machine/Operands.lean ====
section
/-! DEFINITION. Machine.Operands: the values assembled from several registers (R361), the fields of the registers
(R501), and the fetch addresses. -/

namespace Sys2Proof.Machine

/-! ## Fields of single registers (R501) -/

def Chip.test (c : Chip) : Bool := bit (c.reg 0x06) 7
def Chip.ecm (c : Chip) : Bool := bit (c.reg 0x06) 6
def Chip.bmm (c : Chip) : Bool := bit (c.reg 0x06) 5
def Chip.den (c : Chip) : Bool := bit (c.reg 0x06) 4
def Chip.rsel (c : Chip) : Bool := bit (c.reg 0x06) 3
def Chip.rvsOff (c : Chip) : Bool := bit (c.reg 0x07) 7
def Chip.mcm (c : Chip) : Bool := bit (c.reg 0x07) 4
def Chip.dacMode (c : Chip) : Bool := bit (c.reg 0x11) 7
def Chip.volume (c : Chip) : BitVec 4 := field (c.reg 0x11) 0 4
/-- `rom` of CHIP_BITMAP_READ (R213). -/
def Chip.charRom (c : Chip) : Bool := bit (c.reg 0x12) 2
def Chip.forceSingleClock (c : Chip) : Bool := bit (c.reg 0x13) 1

/-- `BG(k) = regs[0x15 + k] & 0x7F` (section 4 of 44_video_pipeline.md). -/
def Chip.bg (c : Chip) (k : Fin 4) : Byte := c.reg ⟨0x15 + k.val, by omega⟩ &&& 0x7F

/-- The border colour (R928). -/
def Chip.borderColour (c : Chip) : Byte := c.reg 0x19 &&& 0x7F

/-! ## Values of several registers (R361) -/

/-- `FREQ1 = regs[0x12][1:0] ++ regs[0x0E]` (R1001). -/
def Chip.freq1 (c : Chip) : BitVec 10 := field (c.reg 0x12) 0 2 ++ c.reg 0x0E

/-- `FREQ2 = regs[0x10][1:0] ++ regs[0x0F]` (R1001). -/
def Chip.freq2 (c : Chip) : BitVec 10 := field (c.reg 0x10) 0 2 ++ c.reg 0x0F

/-- The raster compare `regs[0x0A][0] ++ regs[0x0B]`. -/
def Chip.rasterCompare (c : Chip) : BitVec 9 := field (c.reg 0x0A) 0 1 ++ c.reg 0x0B

/-- `CURSOR = regs[0x0C][1:0] ++ regs[0x0D]` (R522). -/
def Chip.cursor (c : Chip) : BitVec 10 := field (c.reg 0x0C) 0 2 ++ c.reg 0x0D

/-- `CPOSRELOAD = regs[0x1A][1:0] ++ regs[0x1B]` (R741). -/
def Chip.cposReload (c : Chip) : BitVec 10 := field (c.reg 0x1A) 0 2 ++ c.reg 0x1B

/-- `(regs[0x1A][1:0], regs[0x1B]) <- x` (R744). -/
def Chip.setCposReload (c : Chip) (x : BitVec 10) : Chip :=
  (c.setReg 0x1A ((c.reg 0x1A &&& 0xFC) ||| (field x 8 2).setWidth 8)).setReg 0x1B (field x 0 8)

/-! ## Mapping between the column and register 0x1E -/

/-- `P_HPOS_READ(column)` at the current column (R580). -/
def Chip.hposByte (c : Chip) : Byte := c.cfg.hposRead.getD c.seq.column.val 0

/-! ## Vertical window (R743) and line count -/

def Chip.vstart (c : Chip) : BitVec 9 := if c.rsel then 4 else 8
def Chip.vend (c : Chip) : BitVec 9 := if c.rsel then 204 else 200

/-- `P_LINES(std)` of the current standard. -/
def Chip.lines (c : Chip) : Nat := c.cfg.lines c.seq.ntsc

/-! ## Fetch addresses (section 2 of 44_video_pipeline.md, modulo 0x10000) -/

/-- `VM`, the video matrix base. -/
def Chip.videoBase (c : Chip) : Addr := (c.reg 0x14 &&& 0xF8) ++ 0#8

/-- `CB`, the character base. -/
def Chip.charBase (c : Chip) : Addr := (c.reg 0x13 &&& 0xFC) ++ 0#8

/-- `BB`, the bitmap base. -/
def Chip.bitmapBase (c : Chip) : Addr := field (c.reg 0x12) 3 3 ++ 0#13

/-- `P_FETCH_ADDR` for a fetch whose default address is `a` (R22). -/
def Chip.fetchAddr (c : Chip) (f : Fetch) (a : Addr) : Addr :=
  match c.cfg.fetchLaw with
  | none => a
  | some k => Config.fetchAddr k f c.elements

/-- `ATTR_ADDR` (R905): by default one row ahead inside the vertical window. -/
def Chip.attrAddr (c : Chip) : Addr :=
  c.fetchAddr .attr <| c.videoBase + (c.seq.charPos + (if c.seq.winV then 40#10 else 0#10)).setWidth 16

/-- `CHAR_ADDR` (R906). -/
def Chip.charAddr (c : Chip) : Addr := c.fetchAddr .char <| c.videoBase + 0x400#16 + c.seq.charPos.setWidth 16

/-- `BITMAPMODE` (R907). -/
def Chip.bitmapMode (c : Chip) : Bool :=
  match c.seq.renderer with
  | .hiresBmp | .mcBmp => true
  | .invalid => c.bmm
  | .text | .mcText | .ecmText => false

/-- "the mode is extended-colour text" (R907). -/
def Chip.ecmMode (c : Chip) : Bool :=
  match c.seq.renderer with
  | .ecmText => true
  | .invalid => !c.bmm
  | .text | .mcText | .hiresBmp | .mcBmp => false

/-- The character code of R907. -/
def Chip.charCode (c : Chip) (ch : Byte) : Byte :=
  if c.ecmMode then ch &&& 0x3F else if !c.rvsOff then ch &&& 0x7F else ch

/-- `BITMAP_ADDR` (R907) with `ch = charBuf[charCol]`. -/
def Chip.bitmapAddr (c : Chip) (ch : Byte) : Addr :=
  c.fetchAddr .bitmap <| if c.bitmapMode then c.bitmapBase + (c.seq.charPos ++ 0#3).setWidth 16 + c.seq.charSub.setWidth 16
  else c.charBase + (c.charCode ch ++ 0#3).setWidth 16 + c.seq.charSub.setWidth 16

end Sys2Proof.Machine
end

