-- ==== Sys2Proof/Machine/Flags.lean ====
section
/-! DEFINITION. Machine.Flags: the interrupt flags, the window and blank conditions, and the two flags bytes. -/

namespace Sys2Proof.Machine

/-! ## Interrupt flags (R1110) -/

/-- The status and enable bits 1, 2, 3, 4 and 6. -/
def irqMask : Byte := 0x5E

/-- An enabled source is active: bit 7 of register 0x09 (R559) and the level of the IRQ line (R1112). -/
def Chip.irqActive (c : Chip) : Bool := c.irq.stat &&& c.reg 0x0A &&& irqMask != 0

/-- A source sets its status bit, whether or not it is enabled (R1110). -/
def Chip.raiseIrq (c : Chip) (b : Nat) : Chip := { c with irq.stat := setBit c.irq.stat b }

/-- Writing 1 to a status bit clears it (R519, R1111). -/
def ackIrq (stat v : Byte) : Byte := stat &&& ~~~(v &&& irqMask)

/-- The interrupt check of EVEN step 7 (R1112): interruptRequest is called only when the level changes. -/
def Chip.interruptCheck (c : Chip) : Chip :=
  if c.irqActive = c.irq.line then c
  else { c with irq.line := c.irqActive }.emit (.interruptRequest c.irqActive)

/-! ## Conditions of the sequencer -/

/-- `singleClock` (R126). -/
def Chip.singleClock (c : Chip) : Bool := c.forceSingleClock || c.seq.scWin

/-- The display window is active (R127). -/
def Chip.windowActive (c : Chip) : Bool := c.seq.winH && c.seq.winV

/-- `VBL(l)` (R813). -/
def vbl (ntsc : Bool) (l : BitVec 9) : Bool :=
  if ntsc then decide (226 ≤ l.toNat) && decide (l.toNat ≤ 244)
  else decide (251 ≤ l.toNat) && decide (l.toNat ≤ 269)

/-- `VSY(l)` (R813). -/
def vsy (ntsc : Bool) (l : BitVec 9) : Bool :=
  if ntsc then decide (229 ≤ l.toNat) && decide (l.toNat ≤ 232)
  else decide (254 ≤ l.toNat) && decide (l.toNat ≤ 257)

/-- `DMALINE` (R814). -/
def Chip.dmaLine (c : Chip) : Bool :=
  let charLine := c.seq.winV && c.seq.charSub == 0
  let next := c.seq.videoLine.toNat + 1
  let attrLine := c.seq.charSub == 7 &&
    ((c.seq.winV && next != c.vend.toNat) || next == c.vstart.toNat)
  c.den && (charLine || attrLine)

/-- `FLASH = P_FLASH_ON(flashCnt)` (section 4 of 44_video_pipeline.md). -/
def Chip.flash (c : Chip) : Bool := bit c.cfg.flashOn c.seq.flashCnt.toNat

/-! ## Flags bytes -/

/-- `P_SR_FLAGS` (R911); by default bit 0 CURSOR, bit 1 REVERSE; `ch = charBuf[charCol]`, `charPos` before its
increment. -/
def Chip.srFlags (c : Chip) (ch : Byte) : Byte :=
  match c.cfg.srFlagsLaw with
  | none => byteBit (c.seq.charPos == c.cursor) 0 ||| byteBit (!c.rvsOff && bit ch 7) 1
  | some k => Config.srFlags k c.elements

/-- RVSOFF, the cursor position and the character position as they are. -/
def Chip.flagInputs (c : Chip) : FlagInputs := ⟨c.rvsOff, c.cursor, c.seq.charPos⟩

/-- RVSOFF and the cursor position are as they were when the shift register was loaded. -/
def Chip.flagsCurrent (c : Chip) : Bool :=
  c.rvsOff == c.vid.sr.loaded.rvsOff && c.cursor == c.vid.sr.loaded.cursor

/-- `sr.flags` with the CURSOR and REVERSE of the loaded character by the registers as they are: a bit whose register has
not changed since the load is the loaded one, the other is computed anew as R911 does. -/
def Chip.refreshedFlags (c : Chip) : Byte :=
  let sr := c.vid.sr
  let cursor := if c.cursor = sr.loaded.cursor then bit sr.flags 0 else sr.loaded.charPos == c.cursor
  let reverse := if c.rvsOff = sr.loaded.rvsOff then bit sr.flags 1 else !c.rvsOff && bit sr.char 7
  (sr.flags &&& 0xFC) ||| byteBit cursor 0 ||| byteBit reverse 1

/-- The two flags as `R(sr, regs, ...)` of R930 has them from its arguments `sr` and `regs`: `sr.flags`, in which a write of
RVSOFF or of the cursor position, both inputs of the renderers (R517, R522), takes effect at the next render (R1231; DESIGN
CHOICE of the form, log 27). -/
def Chip.flagsNow (c : Chip) : Byte :=
  if c.flagsCurrent then c.vid.sr.flags
  else
    match c.cfg.srFlagsLaw with
    | none => c.refreshedFlags
    | some k => Config.srFlagsNow k c.vid.sr c.rf.regs

/-- The flags byte of a record in the order of `P_FLAGS_LAYOUT`, without the SOLID bit (R951). -/
def Chip.recordFlags (c : Chip) (border : Bool) : Byte :=
  let l := c.cfg.flagsLayout
  byteBit c.seq.hBlank l.hBlank ||| byteBit c.seq.vBlank l.vBlank ||| byteBit c.seq.hSync l.hSync |||
    byteBit c.seq.vSync l.vSync ||| byteBit border l.border

/-- The place of the SOLID bit (R951). -/
def Chip.solidBit (c : Chip) : Nat := c.cfg.flagsLayout.solid

end Sys2Proof.Machine
end

