-- ==== Sys2Proof/Machine/MemUnit.lean ====
section
/-! DEFINITION. Machine.MemUnit: slots, key, MemoryMapTable, resolution, and the byte accesses (20_memory.md,
40_memory_unit_ops.md). -/

namespace Sys2Proof.Machine

/-! ## Slots, key and table -/

/-- `SLOT(a)`: the slot of `P_SLOT_RANGES` whose range contains `a` (R210, R211). -/
def slot (p : Params) (a : Addr) : Nat :=
  p.slotRanges.findIdx fun r => decide (r.1.toNat ≤ a.toNat) && decide (a.toNat ≤ r.2.toNat)

/-- `quarter(slot)` (R220). -/
def quarter (sl : Nat) : Nat :=
  match sl with
  | 0 | 1 => 0
  | 2 => 1
  | 3 => 2
  | _ => 3

/-- The offset of an address within its segment (R202). -/
def segOffset (a : Addr) : BitVec 14 := field a 0 14

/-- The chip bit of an access kind (R213). -/
def isChipAccess : AccessKind → Bool
  | .cpuRead | .cpuWrite => false
  | .chipDmaRead | .chipBitmapRead => true

/-- The rom bit of an access kind (R213). -/
def romBit (kind : AccessKind) (c : Chip) : Bool :=
  match kind with
  | .cpuRead => c.lat.cpuRomOn
  | .cpuWrite => false
  | .chipDmaRead => false
  | .chipBitmapRead => c.charRom

/-- `KEY(kind) = exp ++ chip ++ rom ++ romBankHi ++ romBankLo` (R213), its fields in the order of R212. -/
def memKey (kind : AccessKind) (c : Chip) : BitVec 12 :=
  c.lat.expBank ++ bit1 (isChipAccess kind) ++ bit1 (romBit kind c) ++ c.lat.romBankHi ++ c.lat.romBankLo

/-- The key with each bit, from bit `i` on, at its place of `P_KEY_LAYOUT` (R212). -/
def placeKey : List Nat → Nat → BitVec 12 → BitVec 12
  | [], _, _ => 0
  | b :: rest, i, key => (if bit key i then setBit 0 b else 0) ||| placeKey rest (i + 1) key

/-- `RAMSEG(q)` (R220) for `n` RAM segments. -/
def ramSeg (n exp q : Nat) : Nat := 0xFF - ((exp * 4 + q) % n)

/-- The default `P_MEMORY_MAP` for a RAM size (R220), for a key with its fields in the order of R212. -/
def defaultMap (size : Nat) (key : BitVec 12) (sl : Nat) : Nat :=
  let ram := ramSeg (size / 16) (field key 6 6).toNat (quarter sl)
  if bit key 4 then
    match sl with
    | 3 => 2 * (field key 0 2).toNat
    | 4 | 6 | 7 => 2 * (field key 2 2).toNat + 1
    | 5 => 1
    | _ => ram
  else ram

/-- The entry of a map given as data (R220): its key is the word that `P_KEY_LAYOUT` makes. -/
def MemoryMap.entry (t : MemoryMap) (size : Nat) (word : BitVec 12) (sl : Nat) : Option Nat :=
  match t.ofSize size with
  | none => none
  | some m => m.entries.lookup (word.toNat, sl)

/-- `memMap(key, slot)` (R103, R220): the default map, or the one of the parameter. Before the first configureRAM there is
no RAM size for the table to be made from, and every entry is ABSENT (R1203: every access is open bus, log 11). -/
def memMap (p : Params) (ramSizeKiB : Option Nat) (key : BitVec 12) (sl : Nat) : Option Nat :=
  match ramSizeKiB with
  | none => none
  | some size =>
    match p.memoryMap with
    | none => some (defaultMap size key sl)
    | some t => t.entry size (placeKey p.keyLayout 0 key) sl

/-- The MemoryMapTable's entry for an access (R420). -/
def mapped (kind : AccessKind) (a : Addr) (c : Chip) : Option Nat :=
  memMap c.cfg c.mem.ramSizeKiB (memKey kind c) (slot c.cfg a)

/-- `resolve(kind, a)` (R420): the segment and the offset, or `none` for open bus. -/
def resolve (kind : AccessKind) (a : Addr) (c : Chip) : Option (Nat × BitVec 14) :=
  match mapped kind a c with
  | none => none
  | some i => if (c.mem.seg i).isSome then some (i, segOffset a) else none

/-- `memoryPage(a)` (R431). -/
def memoryPage (a : Addr) (c : Chip) : Option Nat := mapped .cpuRead a c

/-! ## Byte accesses -/

/-- The byte that a read of path `kind` at `a` returns (R421): open bus returns `busValue`. -/
def memReadValue (kind : AccessKind) (a : Addr) (c : Chip) : Byte :=
  match resolve kind a c with
  | none => c.lat.busValue
  | some (i, off) => (c.mem.read i off.toNat).getD c.lat.busValue

/-- The chip after a read of path `kind` at `a` (R421, R231): the bus holds the byte read; an open-bus read leaves it,
which is the same, since that byte is `busValue`. -/
def memReadEffect (kind : AccessKind) (a : Addr) (c : Chip) : Chip := c.drive (memReadValue kind a c)

/-- `MemWrite(CPU_WRITE, a, 1, v)` (R422): the bus holds `v`; open bus and ROM ignore the write. -/
def memWrite (a : Addr) (v : Byte) (c : Chip) : Chip :=
  match resolve .cpuWrite a c with
  | none => c.drive v
  | some (i, off) =>
    if c.mem.isRam i then { c with mem := c.mem.write i off.toNat v }.drive v else c.drive v

/-! ## configureRAM and loadROM (R400-R414) -/

/-- `ROUND(s)` (R401). -/
def roundRam (sizeKiB : Int) : Nat :=
  if 1024 ≤ sizeKiB then 1024
  else if 256 ≤ sizeKiB then 256
  else if 64 ≤ sizeKiB then 64
  else if 32 ≤ sizeKiB then 32
  else 16

/-- The lowest index of the default `RAMSET(S)` (R402). -/
def ramSetBase (size : Nat) : Nat := Config.segSlots - size / 16

/-- `RAMSET(S)` (R402), in rising order: by default the `S/16` highest indices; else that of the memory map. -/
def ramSet (p : Params) (size : Nat) : List Nat :=
  match p.memoryMap with
  | none => List.range' (ramSetBase size) (size / 16)
  | some t => ((t.ofSize size).map SizeMap.ramSet).getD []

/-- Whether configureRAM must allocate: some member of RAMSET(S) is no RAM segment yet (R404). -/
def needsAlloc (p : Params) (size : Nat) (m : Memory) : Bool := (ramSet p size).any fun i => !m.isRam i

/-- What a slot of the new RAMSET holds: a kept RAM segment, or a new one with the fill pattern (R400). Under a memory map
whose RAMSET meets a slot that holds ROM, R400 makes it RAM and R406 leaves it alone: the model makes it RAM (DESIGN CHOICE,
log 26). -/
def ramSegment (size fillPattern : Nat) : Option Segment → Segment
  | some (.ram s f) => .ram s f
  | some (.rom _) => .ram size fillPattern
  | none => .ram size fillPattern

/-- The storage after a configureRAM that succeeds (R400): RAM segments outside the new set are freed, kept ones keep
their contents, new ones hold the fill pattern; ROM segments outside the new set are not touched (R406, log 26). -/
def configuredMem (p : Params) (size fillPattern : Nat) (m : Memory) : Memory :=
  let new := ramSet p size
  let ram := new.map fun i => (i, ramSegment size fillPattern (m.seg i))
  { segs := assocJoin (assocKeep (fun i => !new.contains i && m.isRom i) m.segs) ram
    cells := (m.keepCells fun i => if new.contains i then m.isRam i else m.isRom i).cells
    ramSizeKiB := some size
    fillPattern := some fillPattern }

/-- `BANKIDX(bank)` (R412). -/
def bankIdx (bank : Int) : Nat := (bank % 8).toNat

/-- `ROMSEG(b)` (R220, R410): by default `b`. -/
def romSeg (p : Params) (b : Nat) : Nat :=
  match p.memoryMap with
  | none => b
  | some t => t.romSeg.getD b 0

/-- The bytes written from offset `off` on, offsets wrapping within the segment (R410, R414). -/
def writeRomBytes (i : Nat) : Nat → List Byte → Memory → Memory
  | _, [], m => m
  | off, v :: rest, m => writeRomBytes i ((off + 1) % Config.segSize) rest (m.write i off v)

/-- Slot `i` becomes ABSENT. -/
def Memory.drop (m : Memory) (i : Nat) : Memory :=
  { m.keepCells (fun j => j != i) with segs := assocKeep (fun j => j != i) m.segs }

/-- Slot `i` becomes a new ROM segment whose unwritten bytes are the draw with the given number (R413). -/
def Memory.newRom (m : Memory) (i draw : Nat) : Memory :=
  { m.keepCells (fun j => j != i) with segs := assocPut m.segs i (.rom draw) }

/-- The bytes of a loadROM that are written: `min(max(length, 0), |bytes|)` of them (R410, R414). -/
def romBytes (length : Int) (bytes : List Byte) : List Byte := bytes.take length.toNat

/-- `loadROM(bank, offset, length, bytes | NULL)` (R410): NULL deletes the segment; else the segment is created if it is
no ROM segment (R411, R413), and the bytes are written. -/
def loadRom (bank offset length : Int) (bytes : Option (List Byte)) (c : Chip) : Chip :=
  let i := romSeg c.cfg (bankIdx bank)
  match bytes with
  | none => { c with mem := c.mem.drop i }
  | some data =>
    let off := (offset % (Config.segSize : Int)).toNat
    if c.mem.isRom i then { c with mem := writeRomBytes i off (romBytes length data) c.mem }
    else { c with mem := writeRomBytes i off (romBytes length data) (c.mem.newRom i c.draws) }.drew 1

/-- `getSegmentKind(slot)` (R430), the slot masked modulo 256. -/
def segmentKind (sl : Int) (m : Memory) : SegKind :=
  match m.seg (sl % 256).toNat with
  | none => .none
  | some (.rom _) => .rom
  | some (.ram _ _) => .ram

end Sys2Proof.Machine
end

