-- ==== Sys2Proof/Machine/Registers.lean ====
section
/-! DEFINITION. Machine.Registers: the value a register read returns and the write rule of every offset
(41_register_file.md). -/

namespace Sys2Proof.Machine

/-! ## Reads (R503-R506, R550-R581) -/

/-- `CUR(o)` (R503): the live offsets come from the chip's state, every other one is the stored byte. -/
def cur (o : Fin 32) (c : Chip) : Byte :=
  match o.val with
  | 0x00 => loByte c.tmr.tmr1
  | 0x01 => hiByte c.tmr.tmr1
  | 0x02 => loByte c.tmr.tmr2
  | 0x03 => hiByte c.tmr.tmr2
  | 0x04 => loByte c.tmr.tmr3
  | 0x05 => hiByte c.tmr.tmr3
  | 0x08 => Config.keyboardIn c.draws c.kbdLatch
  | 0x09 => (c.irq.stat &&& irqMask) ||| byteBit c.irqActive 7
  | 0x13 => (c.reg 0x13 &&& 0xFE) ||| byteBit c.lat.cpuRomOn 0
  | 0x1C => (field c.seq.videoLine 8 1).setWidth 8
  | 0x1D => field c.seq.videoLine 0 8
  | 0x1E => c.hposByte
  | 0x1F => (c.seq.flashCnt ++ c.seq.charSub).setWidth 8
  | _ => c.reg o

/-- The byte a register read returns (R506), with the race of R504 while a change is in flight. -/
def readValue (o : Fin 32) (c : Chip) : Byte :=
  match c.pend o with
  | some p => (cur o c &&& p) ||| c.alwaysSet o
  | none => cur o c ||| c.alwaysSet o

/-- The read of register 0x08 takes a free input (R558), which is then drawn. -/
def drewOnRead (o : Fin 32) (c : Chip) : Chip := if o = 0x08 then c.drew 1 else c

/-! ## Writes (R510-R541), in phase `p` -/

/-- R510: the low byte of the latch; the timer stops. -/
def writeTimer1Lo (v : Byte) (c : Chip) : Chip :=
  { c.setReg 0x00 v with tmr.latch1 := word16 (hiByte c.tmr.latch1) v, tmr.run1 := false }

/-- R511: the high byte of the latch; the counter is loaded and starts. -/
def writeTimer1Hi (v : Byte) (c : Chip) : Chip :=
  let latch := word16 v (loByte c.tmr.latch1)
  { c.setReg 0x01 v with tmr.latch1 := latch, tmr.tmr1 := latch, tmr.run1 := true }

/-- R512. -/
def writeTimer2Lo (v : Byte) (c : Chip) : Chip :=
  { c.setReg 0x02 v with tmr.tmr2 := word16 (hiByte c.tmr.tmr2) v, tmr.run2 := false }

/-- R513. -/
def writeTimer2Hi (v : Byte) (c : Chip) : Chip :=
  { c.setReg 0x03 v with tmr.tmr2 := word16 v (loByte c.tmr.tmr2), tmr.run2 := true }

/-- R514. -/
def writeTimer3Lo (v : Byte) (c : Chip) : Chip :=
  { c.setReg 0x04 v with tmr.tmr3 := word16 (hiByte c.tmr.tmr3) v, tmr.run3 := false }

/-- R515. -/
def writeTimer3Hi (v : Byte) (c : Chip) : Chip :=
  { c.setReg 0x05 v with tmr.tmr3 := word16 v (loByte c.tmr.tmr3), tmr.run3 := true }

/-- R516: stored; the renderer selection is scheduled; the test bit refuses (TEST_MODE). -/
def writeControl1 (p : Phase) (v : Byte) (c : Chip) : Chip :=
  let c' := (c.setReg 0x06 v).schedule p evSelectRendererBit c.cfg.delayMode
  if bit v 7 then c'.refuse else c'

/-- The video standard follows bit 6 of register 0x07, and the sink is told of a toggle (R517). -/
def setStandard (n : Bool) (c : Chip) : Chip :=
  if n = c.seq.ntsc then c else { c with seq.ntsc := n }.emit (.ntsc n)

/-- R517: stored; the renderer selection is scheduled; the standard follows bit 6; the freeze bit refuses (FREEZE). -/
def writeControl2 (p : Phase) (v : Byte) (c : Chip) : Chip :=
  let c' := setStandard (bit v 6) ((c.setReg 0x07 v).schedule p evSelectRendererBit c.cfg.delayMode)
  if bit v 5 then c'.refuse else c'

/-- R518. -/
def writeKeyboard (v : Byte) (c : Chip) : Chip := { c.setReg 0x08 v with kbdLatch := v }

/-- R519: writing 1 to a status bit clears it. -/
def writeIrqStatus (v : Byte) (c : Chip) : Chip := { c.setReg 0x09 v with irq.stat := ackIrq c.irq.stat v }

/-- R520. -/
def writeIrqEnable (v : Byte) (c : Chip) : Chip := c.setReg 0x0A v
/-- R521. -/
def writeRasterLo (v : Byte) (c : Chip) : Chip := c.setReg 0x0B v
/-- R522. -/
def writeCursorHi (v : Byte) (c : Chip) : Chip := c.setReg 0x0C v
/-- R523. -/
def writeCursorLo (v : Byte) (c : Chip) : Chip := c.setReg 0x0D v

/-- `snd[1].reload <- P_RELOAD(FREQ1)` (R524, R528). -/
def reloadChannel1 (c : Chip) : Chip := { c with snd.ch1.reload := c.cfg.reloadOf c.freq1 }

/-- `snd[2].reload <- P_RELOAD(FREQ2)` (R525, R526). -/
def reloadChannel2 (c : Chip) : Chip := { c with snd.ch2.reload := c.cfg.reloadOf c.freq2 }

/-- R524. -/
def writeFreq1Lo (v : Byte) (c : Chip) : Chip := reloadChannel1 (c.setReg 0x0E v)
/-- R525. -/
def writeFreq2Lo (v : Byte) (c : Chip) : Chip := reloadChannel2 (c.setReg 0x0F v)
/-- R526. -/
def writeFreq2Hi (v : Byte) (c : Chip) : Chip := reloadChannel2 (c.setReg 0x10 v)
/-- R527. -/
def writeSoundControl (v : Byte) (c : Chip) : Chip := c.setReg 0x11 v
/-- R528. -/
def writeBitmapBase (v : Byte) (c : Chip) : Chip := reloadChannel1 (c.setReg 0x12 v)
/-- R529. -/
def writeCharBase (v : Byte) (c : Chip) : Chip := c.setReg 0x13 v
/-- R530. -/
def writeVideoBase (v : Byte) (c : Chip) : Chip := c.setReg 0x14 v
/-- R531. -/
def writeBg0 (v : Byte) (c : Chip) : Chip := c.setReg 0x15 v
/-- R532. -/
def writeBg1 (v : Byte) (c : Chip) : Chip := c.setReg 0x16 v
/-- R533. -/
def writeBg2 (v : Byte) (c : Chip) : Chip := c.setReg 0x17 v
/-- R534. -/
def writeBg3 (v : Byte) (c : Chip) : Chip := c.setReg 0x18 v
/-- R535. -/
def writeBorder (v : Byte) (c : Chip) : Chip := c.setReg 0x19 v

/-- R536: the written value waits until the micro-operation; a second write replaces it. -/
def writeCposReloadHi (p : Phase) (v : Byte) (c : Chip) : Chip :=
  { c with rf.pend1A := some v }.schedule p evLoadCposReloadBit c.cfg.delayCpos

/-- R537. -/
def writeCposReloadLo (p : Phase) (v : Byte) (c : Chip) : Chip :=
  { c with rf.pend1B := some v }.schedule p evLoadCposReloadBit c.cfg.delayCpos

/-- R538: immediate. -/
def writeLineHi (v : Byte) (c : Chip) : Chip :=
  { c.setReg 0x1C v with seq.videoLine := field v 0 1 ++ field c.seq.videoLine 0 8 }

/-- R539: immediate. -/
def writeLineLo (v : Byte) (c : Chip) : Chip :=
  { c.setReg 0x1D v with seq.videoLine := field c.seq.videoLine 8 1 ++ v }

/-- R540. -/
def writeHpos (p : Phase) (v : Byte) (c : Chip) : Chip :=
  { c with rf.pend1E := some v }.schedule p evLoadHposBit c.cfg.delayHpos

/-- R541. -/
def writeVsub (p : Phase) (v : Byte) (c : Chip) : Chip :=
  { c with rf.pend1F := some v }.schedule p evLoadVsubBit c.cfg.delayVsub

/-- The write rule R510 + o, in phase `p` (R505). -/
def writeRule (p : Phase) (o : Fin 32) (v : Byte) (c : Chip) : Chip :=
  match o.val with
  | 0x00 => writeTimer1Lo v c
  | 0x01 => writeTimer1Hi v c
  | 0x02 => writeTimer2Lo v c
  | 0x03 => writeTimer2Hi v c
  | 0x04 => writeTimer3Lo v c
  | 0x05 => writeTimer3Hi v c
  | 0x06 => writeControl1 p v c
  | 0x07 => writeControl2 p v c
  | 0x08 => writeKeyboard v c
  | 0x09 => writeIrqStatus v c
  | 0x0A => writeIrqEnable v c
  | 0x0B => writeRasterLo v c
  | 0x0C => writeCursorHi v c
  | 0x0D => writeCursorLo v c
  | 0x0E => writeFreq1Lo v c
  | 0x0F => writeFreq2Lo v c
  | 0x10 => writeFreq2Hi v c
  | 0x11 => writeSoundControl v c
  | 0x12 => writeBitmapBase v c
  | 0x13 => writeCharBase v c
  | 0x14 => writeVideoBase v c
  | 0x15 => writeBg0 v c
  | 0x16 => writeBg1 v c
  | 0x17 => writeBg2 v c
  | 0x18 => writeBg3 v c
  | 0x19 => writeBorder v c
  | 0x1A => writeCposReloadHi p v c
  | 0x1B => writeCposReloadLo p v c
  | 0x1C => writeLineHi v c
  | 0x1D => writeLineLo v c
  | 0x1E => writeHpos p v c
  | _ => writeVsub p v c

end Sys2Proof.Machine
end

