-- ==== Sys2Proof/Machine/Bus.lean ====
section
/-! DEFINITION. Machine.Bus: the CPU-bus handlers and the meanings of the BUS rows (41_register_file.md section 5, R301).

A BUS row as an instruction is one access of the external CPU, executed at once in the current phase (R424, R830). -/

namespace Sys2Proof.Machine

/-- The bus address of register offset `o` (R500). -/
def regAddr (o : Fin 32) : Addr := 0xFF00#16 + BitVec.ofNat 16 o.val

/-- The CPU is handed byte `v` from address `a`: the bus holds it (R231). -/
def deliver (a : Addr) (v : Byte) (c : Chip) : Chip := (c.drive v).emit (.cpuRead a v)

/-- The CPU drives byte `v` to address `a`: the bus holds it (R231). -/
def accept (a : Addr) (v : Byte) (c : Chip) : Chip := (c.drive v).emit (.cpuWrite a v)

/-- `readRegister(o)` on the CPU bus (R506). -/
def cpuReadReg (o : Fin 32) (c : Chip) : Chip := drewOnRead o (deliver (regAddr o) (readValue o c) c)

/-- `writeRegister(o, v)` on the CPU bus, in the current phase (R505). -/
def cpuWriteReg (o : Fin 32) (v : Byte) (c : Chip) : Chip :=
  writeRule c.seq.phase o v (accept (regAddr o) v c)

/-- CPU write to 0xFF3E (R590): ROM on. -/
def cpuRomOn (v : Byte) (c : Chip) : Chip := { accept 0xFF3E v c with lat.cpuRomOn := true }

/-- CPU write to 0xFF3F (R591): RAM on. -/
def cpuRomOff (v : Byte) (c : Chip) : Chip := { accept 0xFF3F v c with lat.cpuRomOn := false }

/-- CPU write to 0xFDD0 + x (R592): the banks come from the address. -/
def cpuSetBanks (x : BitVec 4) (v : Byte) (c : Chip) : Chip :=
  { accept (0xFDD#12 ++ x) v c with lat.romBankLo := field x 0 2, lat.romBankHi := field x 2 2 }

/-- CPU read of memory (R594). -/
def cpuMemRead (a : Addr) (c : Chip) : Chip := deliver a (memReadValue .cpuRead a c) c

/-- CPU write of memory (R595). -/
def cpuMemWrite (a : Addr) (v : Byte) (c : Chip) : Chip := memWrite a v (accept a v c)

/-- What the CPU is handed by the external answer to a read of the I/O range (R593, R231): an answer that drives no bus
leaves the bus value to be read. -/
def ioDeliver (a : Addr) (c : Chip) : IoAnswer → Chip
  | .byte v => deliver a v c
  | .openBus => deliver a c.lat.busValue c
  | .memory => cpuMemRead a c

/-- `P_IO_READ(a)` (R593): by default the memory access; else what the external handler answers, a new answer at each
read. -/
def ioRead (a : Addr) (c : Chip) : Chip :=
  match c.cfg.ioReadLaw with
  | none => cpuMemRead a c
  | some k => (ioDeliver a c (Config.ioRead k c.draws a)).drew 1

/-- `P_IO_WRITE(a, v)` (R593): by default the memory access; a byte that an external device takes is only driven on the
bus. -/
def ioWrite (a : Addr) (v : Byte) (c : Chip) : Chip :=
  match c.cfg.ioWriteLaw with
  | none => cpuMemWrite a v c
  | some k => (if Config.ioWrite k c.draws a v then accept a v c else cpuMemWrite a v c).drew 1

/-- A CPU read of any address, first match in the order of R301. -/
def busRead (a : Addr) (c : Chip) : Chip :=
  if 0xFF00 ≤ a.toNat ∧ a.toNat ≤ 0xFF1F then cpuReadReg (field a 0 5).toFin c
  else if 0xFD00 ≤ a.toNat ∧ a.toNat ≤ 0xFEFF then ioRead a c
  else cpuMemRead a c

/-- A CPU write of any address, first match in the order of R301. -/
def busWrite (a : Addr) (v : Byte) (c : Chip) : Chip :=
  if 0xFF00 ≤ a.toNat ∧ a.toNat ≤ 0xFF1F then cpuWriteReg (field a 0 5).toFin v c
  else if a.toNat = 0xFF3E then cpuRomOn v c
  else if a.toNat = 0xFF3F then cpuRomOff v c
  else if 0xFDD0 ≤ a.toNat ∧ a.toNat ≤ 0xFDDF then cpuSetBanks (field a 0 4) v c
  else if 0xFD00 ≤ a.toNat ∧ a.toNat ≤ 0xFEFF then ioWrite a v c
  else cpuMemWrite a v c

/-! ## Meanings of the BUS rows -/

/-- RD_FF00: R550, R506. -/
def execRdFF00 (s : State) : Host.Outcome State Fault Refusal := s.chipStep (cpuReadReg 0x00)

/-- RD_FF01: R551, R506. -/
def execRdFF01 (s : State) : Host.Outcome State Fault Refusal := s.chipStep (cpuReadReg 0x01)

/-- RD_FF02: R552, R506. -/
def execRdFF02 (s : State) : Host.Outcome State Fault Refusal := s.chipStep (cpuReadReg 0x02)

/-- RD_FF03: R553, R506. -/
def execRdFF03 (s : State) : Host.Outcome State Fault Refusal := s.chipStep (cpuReadReg 0x03)

/-- RD_FF04: R554, R506. -/
def execRdFF04 (s : State) : Host.Outcome State Fault Refusal := s.chipStep (cpuReadReg 0x04)

/-- RD_FF05: R555, R506. -/
def execRdFF05 (s : State) : Host.Outcome State Fault Refusal := s.chipStep (cpuReadReg 0x05)

/-- RD_FF06: R556, R506. -/
def execRdFF06 (s : State) : Host.Outcome State Fault Refusal := s.chipStep (cpuReadReg 0x06)

/-- RD_FF07: R557, R506. -/
def execRdFF07 (s : State) : Host.Outcome State Fault Refusal := s.chipStep (cpuReadReg 0x07)

/-- RD_FF08: R558, R506. -/
def execRdFF08 (s : State) : Host.Outcome State Fault Refusal := s.chipStep (cpuReadReg 0x08)

/-- RD_FF09: R559, R506. -/
def execRdFF09 (s : State) : Host.Outcome State Fault Refusal := s.chipStep (cpuReadReg 0x09)

/-- RD_FF0A: R560, R506. -/
def execRdFF0A (s : State) : Host.Outcome State Fault Refusal := s.chipStep (cpuReadReg 0x0A)

/-- RD_FF0B: R561, R506. -/
def execRdFF0B (s : State) : Host.Outcome State Fault Refusal := s.chipStep (cpuReadReg 0x0B)

/-- RD_FF0C: R562, R506. -/
def execRdFF0C (s : State) : Host.Outcome State Fault Refusal := s.chipStep (cpuReadReg 0x0C)

/-- RD_FF0D: R563, R506. -/
def execRdFF0D (s : State) : Host.Outcome State Fault Refusal := s.chipStep (cpuReadReg 0x0D)

/-- RD_FF0E: R564, R506. -/
def execRdFF0E (s : State) : Host.Outcome State Fault Refusal := s.chipStep (cpuReadReg 0x0E)

/-- RD_FF0F: R565, R506. -/
def execRdFF0F (s : State) : Host.Outcome State Fault Refusal := s.chipStep (cpuReadReg 0x0F)

/-- RD_FF10: R566, R506. -/
def execRdFF10 (s : State) : Host.Outcome State Fault Refusal := s.chipStep (cpuReadReg 0x10)

/-- RD_FF11: R567, R506. -/
def execRdFF11 (s : State) : Host.Outcome State Fault Refusal := s.chipStep (cpuReadReg 0x11)

/-- RD_FF12: R568, R506. -/
def execRdFF12 (s : State) : Host.Outcome State Fault Refusal := s.chipStep (cpuReadReg 0x12)

/-- RD_FF13: R569, R506. -/
def execRdFF13 (s : State) : Host.Outcome State Fault Refusal := s.chipStep (cpuReadReg 0x13)

/-- RD_FF14: R570, R506. -/
def execRdFF14 (s : State) : Host.Outcome State Fault Refusal := s.chipStep (cpuReadReg 0x14)

/-- RD_FF15: R571, R506. -/
def execRdFF15 (s : State) : Host.Outcome State Fault Refusal := s.chipStep (cpuReadReg 0x15)

/-- RD_FF16: R572, R506. -/
def execRdFF16 (s : State) : Host.Outcome State Fault Refusal := s.chipStep (cpuReadReg 0x16)

/-- RD_FF17: R573, R506. -/
def execRdFF17 (s : State) : Host.Outcome State Fault Refusal := s.chipStep (cpuReadReg 0x17)

/-- RD_FF18: R574, R506. -/
def execRdFF18 (s : State) : Host.Outcome State Fault Refusal := s.chipStep (cpuReadReg 0x18)

/-- RD_FF19: R575, R506. -/
def execRdFF19 (s : State) : Host.Outcome State Fault Refusal := s.chipStep (cpuReadReg 0x19)

/-- RD_FF1A: R576, R506. -/
def execRdFF1A (s : State) : Host.Outcome State Fault Refusal := s.chipStep (cpuReadReg 0x1A)

/-- RD_FF1B: R577, R506. -/
def execRdFF1B (s : State) : Host.Outcome State Fault Refusal := s.chipStep (cpuReadReg 0x1B)

/-- RD_FF1C: R578, R506. -/
def execRdFF1C (s : State) : Host.Outcome State Fault Refusal := s.chipStep (cpuReadReg 0x1C)

/-- RD_FF1D: R579, R506. -/
def execRdFF1D (s : State) : Host.Outcome State Fault Refusal := s.chipStep (cpuReadReg 0x1D)

/-- RD_FF1E: R580, R506. -/
def execRdFF1E (s : State) : Host.Outcome State Fault Refusal := s.chipStep (cpuReadReg 0x1E)

/-- RD_FF1F: R581, R506. -/
def execRdFF1F (s : State) : Host.Outcome State Fault Refusal := s.chipStep (cpuReadReg 0x1F)

/-- WR_FF00: R510, R505. -/
def execWrFF00 (v : Byte) (s : State) : Host.Outcome State Fault Refusal := s.chipStep (cpuWriteReg 0x00 v)

/-- WR_FF01: R511, R505. -/
def execWrFF01 (v : Byte) (s : State) : Host.Outcome State Fault Refusal := s.chipStep (cpuWriteReg 0x01 v)

/-- WR_FF02: R512, R505. -/
def execWrFF02 (v : Byte) (s : State) : Host.Outcome State Fault Refusal := s.chipStep (cpuWriteReg 0x02 v)

/-- WR_FF03: R513, R505. -/
def execWrFF03 (v : Byte) (s : State) : Host.Outcome State Fault Refusal := s.chipStep (cpuWriteReg 0x03 v)

/-- WR_FF04: R514, R505. -/
def execWrFF04 (v : Byte) (s : State) : Host.Outcome State Fault Refusal := s.chipStep (cpuWriteReg 0x04 v)

/-- WR_FF05: R515, R505. -/
def execWrFF05 (v : Byte) (s : State) : Host.Outcome State Fault Refusal := s.chipStep (cpuWriteReg 0x05 v)

/-- WR_FF06: R516, R505. -/
def execWrFF06 (v : Byte) (s : State) : Host.Outcome State Fault Refusal := s.chipStep (cpuWriteReg 0x06 v)

/-- WR_FF07: R517, R505. -/
def execWrFF07 (v : Byte) (s : State) : Host.Outcome State Fault Refusal := s.chipStep (cpuWriteReg 0x07 v)

/-- WR_FF08: R518, R505. -/
def execWrFF08 (v : Byte) (s : State) : Host.Outcome State Fault Refusal := s.chipStep (cpuWriteReg 0x08 v)

/-- WR_FF09: R519, R505. -/
def execWrFF09 (v : Byte) (s : State) : Host.Outcome State Fault Refusal := s.chipStep (cpuWriteReg 0x09 v)

/-- WR_FF0A: R520, R505. -/
def execWrFF0A (v : Byte) (s : State) : Host.Outcome State Fault Refusal := s.chipStep (cpuWriteReg 0x0A v)

/-- WR_FF0B: R521, R505. -/
def execWrFF0B (v : Byte) (s : State) : Host.Outcome State Fault Refusal := s.chipStep (cpuWriteReg 0x0B v)

/-- WR_FF0C: R522, R505. -/
def execWrFF0C (v : Byte) (s : State) : Host.Outcome State Fault Refusal := s.chipStep (cpuWriteReg 0x0C v)

/-- WR_FF0D: R523, R505. -/
def execWrFF0D (v : Byte) (s : State) : Host.Outcome State Fault Refusal := s.chipStep (cpuWriteReg 0x0D v)

/-- WR_FF0E: R524, R505. -/
def execWrFF0E (v : Byte) (s : State) : Host.Outcome State Fault Refusal := s.chipStep (cpuWriteReg 0x0E v)

/-- WR_FF0F: R525, R505. -/
def execWrFF0F (v : Byte) (s : State) : Host.Outcome State Fault Refusal := s.chipStep (cpuWriteReg 0x0F v)

/-- WR_FF10: R526, R505. -/
def execWrFF10 (v : Byte) (s : State) : Host.Outcome State Fault Refusal := s.chipStep (cpuWriteReg 0x10 v)

/-- WR_FF11: R527, R505. -/
def execWrFF11 (v : Byte) (s : State) : Host.Outcome State Fault Refusal := s.chipStep (cpuWriteReg 0x11 v)

/-- WR_FF12: R528, R505. -/
def execWrFF12 (v : Byte) (s : State) : Host.Outcome State Fault Refusal := s.chipStep (cpuWriteReg 0x12 v)

/-- WR_FF13: R529, R505. -/
def execWrFF13 (v : Byte) (s : State) : Host.Outcome State Fault Refusal := s.chipStep (cpuWriteReg 0x13 v)

/-- WR_FF14: R530, R505. -/
def execWrFF14 (v : Byte) (s : State) : Host.Outcome State Fault Refusal := s.chipStep (cpuWriteReg 0x14 v)

/-- WR_FF15: R531, R505. -/
def execWrFF15 (v : Byte) (s : State) : Host.Outcome State Fault Refusal := s.chipStep (cpuWriteReg 0x15 v)

/-- WR_FF16: R532, R505. -/
def execWrFF16 (v : Byte) (s : State) : Host.Outcome State Fault Refusal := s.chipStep (cpuWriteReg 0x16 v)

/-- WR_FF17: R533, R505. -/
def execWrFF17 (v : Byte) (s : State) : Host.Outcome State Fault Refusal := s.chipStep (cpuWriteReg 0x17 v)

/-- WR_FF18: R534, R505. -/
def execWrFF18 (v : Byte) (s : State) : Host.Outcome State Fault Refusal := s.chipStep (cpuWriteReg 0x18 v)

/-- WR_FF19: R535, R505. -/
def execWrFF19 (v : Byte) (s : State) : Host.Outcome State Fault Refusal := s.chipStep (cpuWriteReg 0x19 v)

/-- WR_FF1A: R536, R505. -/
def execWrFF1A (v : Byte) (s : State) : Host.Outcome State Fault Refusal := s.chipStep (cpuWriteReg 0x1A v)

/-- WR_FF1B: R537, R505. -/
def execWrFF1B (v : Byte) (s : State) : Host.Outcome State Fault Refusal := s.chipStep (cpuWriteReg 0x1B v)

/-- WR_FF1C: R538, R505. -/
def execWrFF1C (v : Byte) (s : State) : Host.Outcome State Fault Refusal := s.chipStep (cpuWriteReg 0x1C v)

/-- WR_FF1D: R539, R505. -/
def execWrFF1D (v : Byte) (s : State) : Host.Outcome State Fault Refusal := s.chipStep (cpuWriteReg 0x1D v)

/-- WR_FF1E: R540, R505. -/
def execWrFF1E (v : Byte) (s : State) : Host.Outcome State Fault Refusal := s.chipStep (cpuWriteReg 0x1E v)

/-- WR_FF1F: R541, R505. -/
def execWrFF1F (v : Byte) (s : State) : Host.Outcome State Fault Refusal := s.chipStep (cpuWriteReg 0x1F v)

/-- WR_FF3E: R590. -/
def execWrFF3E (v : Byte) (s : State) : Host.Outcome State Fault Refusal := s.chipStep (cpuRomOn v)

/-- WR_FF3F: R591. -/
def execWrFF3F (v : Byte) (s : State) : Host.Outcome State Fault Refusal := s.chipStep (cpuRomOff v)

/-- WR_FDDx: R592. -/
def execWrFDDx (x : BitVec 4) (v : Byte) (s : State) : Host.Outcome State Fault Refusal := s.chipStep (cpuSetBanks x v)

/-- IO_RD_FD: R593. -/
def execIoRdFD (lo : Byte) (s : State) : Host.Outcome State Fault Refusal := s.chipStep (ioRead (0xFD#8 ++ lo))

/-- IO_RD_FE: R593. -/
def execIoRdFE (lo : Byte) (s : State) : Host.Outcome State Fault Refusal := s.chipStep (ioRead (0xFE#8 ++ lo))

/-- IO_WR_FD: R593. -/
def execIoWrFD (lo v : Byte) (s : State) : Host.Outcome State Fault Refusal := s.chipStep (ioWrite (0xFD#8 ++ lo) v)

/-- IO_WR_FE: R593. -/
def execIoWrFE (lo v : Byte) (s : State) : Host.Outcome State Fault Refusal := s.chipStep (ioWrite (0xFE#8 ++ lo) v)

/-- MEM_RD: R594. -/
def execMemRd (a : Addr) (s : State) : Host.Outcome State Fault Refusal := s.chipStep (cpuMemRead a)

/-- MEM_WR: R595. -/
def execMemWr (a : Addr) (v : Byte) (s : State) : Host.Outcome State Fault Refusal := s.chipStep (cpuMemWrite a v)

end Sys2Proof.Machine
end

