-- ==== Sys2Proof/Machine/Change.lean ====
section
/-! DEFINITION. Machine.Change: what a state change that a parameter gives makes of the chip (R22, log 4). -/

namespace Sys2Proof.Machine

/-- The call by which the chip tells the CPU that it takes the bus (R821) or gives it back (R746). -/
def handOver (before after : BusMode) : List Event :=
  if before = .chipDma ∧ after ≠ .chipDma then [.setIsCPURunning true]
  else if before ≠ .chipDma ∧ after = .chipDma then [.setIsCPURunning false]
  else []

/-- The sequencer after a state change; phase, column, line, prescaler and standard are not its to change (log 4). -/
def Sequencer.changed (x : StateChange) (q : Sequencer) : Sequencer :=
  { q with
    busMode := x.busMode
    scWin := x.scWin
    winH := x.winH
    winV := x.winV
    hBlank := x.hBlank
    vBlank := x.vBlank
    hSync := x.hSync
    vSync := x.vSync
    refresh := x.refresh
    renderer := x.renderer
    charSub := x.charSub
    flashCnt := x.flashCnt
    charPos := x.charPos
    charCol := x.charCol }

/-- The register file after a state change: the events scheduled, besides those in flight (R700, R712); the registers and
the pending values are not its to change (R110, log 4). -/
def RegFile.changed (x : StateChange) (r : RegFile) : RegFile :=
  { r with
    evEven := r.evEven ||| x.evEven.setWidth 32
    evOdd := r.evOdd ||| x.evOdd.setWidth 32 }

/-- The chip after a state change. -/
def Chip.change (x : StateChange) (c : Chip) : Chip :=
  { c with
    lat := { c.lat with cpuRomOn := x.cpuRomOn, romBankLo := x.romBankLo, romBankHi := x.romBankHi }
    rf := c.rf.changed x
    seq := c.seq.changed x
    vid := ⟨x.sr, x.fetched, x.attrBuf, x.charBuf, x.attrCur, c.vid.outBuf⟩
    trace := handOver c.seq.busMode x.busMode ++ c.trace }

/-- The chip after another `P_VSUB_UPDATE` (R744): its state change, and the reload registers, which the two line
operations write directly. -/
def Chip.updateRow (x : RowUpdate) (c : Chip) : Chip :=
  ((c.change x.rest).setReg 0x1A x.reloadHi).setReg 0x1B x.reloadLo

/-- The chip after another `P_INC_LINE` (R743): as above, then the new line, which may be any (R538), and the raster
compare's status bit (R1110). -/
def Chip.incrementLine (x : LineIncrement) (c : Chip) : Chip :=
  let c' := { c.updateRow x.row with seq.videoLine := x.line }
  if x.raster then c'.raiseIrq 1 else c'

end Sys2Proof.Machine
end

