-- ==== Sys2Proof/Machine/Events.lean ====
section
/-! DEFINITION. Machine.Events: the micro-operations, the dispatch of a delayed-event mask, and the meanings of the EVENT
rows (42_delayed_events.md). -/

namespace Sys2Proof.Machine

/-! ## The micro-operations (R740-R748) -/

/-- `EV_LOAD_HPOS` in phase `p` (R740, R747): the pending position moves the column, or refuses (HPOS_RANGE) where the
sequencer has no such column; either way it is stored and no longer pending. -/
def loadHpos (p : Phase) (c : Chip) : Chip :=
  match c.rf.pend1E with
  | none => c
  | some v =>
    let c' := { c.setReg 0x1E v with rf.pend1E := none }
    if h : c.cfg.hposWrite v p < 114 then { c' with seq.column := ⟨c.cfg.hposWrite v p, h⟩ } else c'.refuse

/-- Stores the value waiting for `CPOSRELOAD`'s high part (R741). -/
def applyPend1A (c : Chip) : Chip :=
  match c.rf.pend1A with
  | none => c
  | some v => { c.setReg 0x1A v with rf.pend1A := none }

/-- Stores the value waiting for `CPOSRELOAD`'s low part (R741). -/
def applyPend1B (c : Chip) : Chip :=
  match c.rf.pend1B with
  | none => c
  | some v => { c.setReg 0x1B v with rf.pend1B := none }

/-- `EV_LOAD_CPOS_RELOAD` (R741). -/
def loadCposReload (c : Chip) : Chip := applyPend1B (applyPend1A c)

/-- `EV_LOAD_VSUB` (R742): the flash counter and the vertical sub-address come from the pending value. -/
def loadVsub (c : Chip) : Chip :=
  match c.rf.pend1F with
  | none => c
  | some v => { c.setReg 0x1F v with rf.pend1F := none, seq.flashCnt := field v 3 4, seq.charSub := field v 0 3 }

/-- The line after the current one (R743). -/
def Chip.nextLine (c : Chip) : BitVec 9 :=
  if c.seq.videoLine.toNat + 1 = c.lines ∨ c.seq.videoLine.toNat = 511 then 0 else c.seq.videoLine + 1

/-- The vertical window opens (if display is enabled) and closes at its two lines (R743). -/
def verticalWindow (c : Chip) : Chip :=
  let c := if c.seq.videoLine = c.vstart then { c with seq.winV := c.den } else c
  if c.seq.videoLine = c.vend then { c with seq.winV := false } else c

/-- The counters at the start of a frame (R743). -/
def frameStart (c : Chip) : Chip :=
  if c.seq.videoLine = 0 then
    { (c.setReg 0x1A (c.reg 0x1A &&& 0xFC)).setReg 0x1B 0 with seq.charSub := 7, seq.charPos := 0 }
  else c

/-- The raster compare of the new line (R743, R1110). -/
def compareRaster (c : Chip) : Chip := if c.seq.videoLine = c.rasterCompare then c.raiseIrq 1 else c

/-- The default `P_INC_LINE` (R743). -/
def defaultIncLine (c : Chip) : Chip :=
  compareRaster (frameStart (verticalWindow { c with seq.videoLine := c.nextLine }))

/-- `EV_INC_VIDEO_LINE` (R743): by default as above, else the line and the state change that `P_INC_LINE` gives. -/
def incVideoLine (c : Chip) : Chip :=
  match c.cfg.incLineLaw with
  | none => defaultIncLine c
  | some k => c.incrementLine (Config.incLine k c.elements)

/-- The default `P_VSUB_UPDATE` (R744): after a row's last line the reload value moves on to the next row. -/
def defaultVsubUpdate (c : Chip) : Chip :=
  if c.seq.winV then
    if c.seq.charSub = 7 then
      let c' := { c with seq.charSub := 0 }
      if c.seq.videoLine = c.vstart then c' else c'.setCposReload c.seq.charPos
    else { c with seq.charSub := c.seq.charSub + 1 }
  else c

/-- `EV_UPDATE_VSUB` (R744): by default as above, else what `P_VSUB_UPDATE` gives, the two reload registers with it. -/
def updateVsub (c : Chip) : Chip :=
  match c.cfg.vsubLaw with
  | none => defaultVsubUpdate c
  | some k => c.updateRow (Config.vsubUpdate k c.elements)

/-- `RENDERER_OF(ECM, BMM, MCM)` (R340, R341). -/
def rendererOf (ecm bmm mcm : Bool) : Renderer :=
  match ecm, bmm, mcm with
  | false, false, false => .text
  | false, false, true => .mcText
  | false, true, false => .hiresBmp
  | false, true, true => .mcBmp
  | true, false, false => .ecmText
  | true, false, true => .invalid
  | true, true, false => .invalid
  | true, true, true => .invalid

/-- `EV_SELECT_RENDERER` (R745): the mode bits as they are now. -/
def selectRenderer (c : Chip) : Chip := { c with seq.renderer := rendererOf c.ecm c.bmm c.mcm }

/-- `EV_STOP_DMA` (R746): the CPU runs again. -/
def stopDma (c : Chip) : Chip :=
  let c' := if c.seq.busMode = .chipDma then c.emit (.setIsCPURunning true) else c
  { c' with seq.busMode := .cpuRun }

/-- The micro-operation of bit `b`, in phase `p`; a bit without one has no effect (R748). -/
def microOp (p : Phase) (b : Nat) (c : Chip) : Chip :=
  match b with
  | 0 => loadHpos p c
  | 1 => loadCposReload c
  | 2 => loadVsub c
  | 3 => incVideoLine c
  | 4 => updateVsub c
  | 5 => selectRenderer c
  | 6 => stopDma c
  | _ => c

/-! ## Dispatch (R720) -/

/-- Runs, in order, the micro-operations of the bits set in `m`. -/
def runEvents (p : Phase) (m : BitVec 32) : List Nat → Chip → Chip
  | [], c => c
  | b :: rest, c => runEvents p m rest (if bit m b then microOp p b c else c)

/-- `dispatch(P)` (R720): the mask is copied and cleared first; the order is `P_EVENT_ORDER`. -/
def dispatch (p : Phase) (c : Chip) : Chip := runEvents p (c.evMask p) c.cfg.eventOrder (c.setEvMask p 0)

/-! ## Meanings of the EVENT rows: the micro-operation alone, in the current phase (log 20) -/

/-- EV_LOAD_HPOS: R740. -/
def execEvLoadHpos (s : State) : Host.Outcome State Fault Refusal := s.chipStep fun c => loadHpos c.seq.phase c

/-- EV_LOAD_CPOS_RELOAD: R741. -/
def execEvLoadCposReload (s : State) : Host.Outcome State Fault Refusal := s.chipStep loadCposReload

/-- EV_LOAD_VSUB: R742. -/
def execEvLoadVsub (s : State) : Host.Outcome State Fault Refusal := s.chipStep loadVsub

/-- EV_INC_VIDEO_LINE: R743. -/
def execEvIncVideoLine (s : State) : Host.Outcome State Fault Refusal := s.chipStep incVideoLine

/-- EV_UPDATE_VSUB: R744. -/
def execEvUpdateVsub (s : State) : Host.Outcome State Fault Refusal := s.chipStep updateVsub

/-- EV_SELECT_RENDERER: R745. -/
def execEvSelectRenderer (s : State) : Host.Outcome State Fault Refusal := s.chipStep selectRenderer

/-- EV_STOP_DMA: R746. -/
def execEvStopDma (s : State) : Host.Outcome State Fault Refusal := s.chipStep stopDma

/-- EV_RESERVED_7: no micro-operation is defined, so no effect (R331, R748). -/
def execEvReserved7 (s : State) : Host.Outcome State Fault Refusal := s.chipStep fun c => microOp c.seq.phase 7 c

/-- EV_RESERVED_8: no micro-operation is defined, so no effect (R331, R748). -/
def execEvReserved8 (s : State) : Host.Outcome State Fault Refusal := s.chipStep fun c => microOp c.seq.phase 8 c

/-- EV_RESERVED_9: no micro-operation is defined, so no effect (R331, R748). -/
def execEvReserved9 (s : State) : Host.Outcome State Fault Refusal := s.chipStep fun c => microOp c.seq.phase 9 c

/-- EV_RESERVED_10: no micro-operation is defined, so no effect (R331, R748). -/
def execEvReserved10 (s : State) : Host.Outcome State Fault Refusal := s.chipStep fun c => microOp c.seq.phase 10 c

/-- EV_RESERVED_11: no micro-operation is defined, so no effect (R331, R748). -/
def execEvReserved11 (s : State) : Host.Outcome State Fault Refusal := s.chipStep fun c => microOp c.seq.phase 11 c

/-- EV_RESERVED_12: no micro-operation is defined, so no effect (R331, R748). -/
def execEvReserved12 (s : State) : Host.Outcome State Fault Refusal := s.chipStep fun c => microOp c.seq.phase 12 c

/-- EV_RESERVED_13: no micro-operation is defined, so no effect (R331, R748). -/
def execEvReserved13 (s : State) : Host.Outcome State Fault Refusal := s.chipStep fun c => microOp c.seq.phase 13 c

/-- EV_RESERVED_14: no micro-operation is defined, so no effect (R331, R748). -/
def execEvReserved14 (s : State) : Host.Outcome State Fault Refusal := s.chipStep fun c => microOp c.seq.phase 14 c

/-- EV_RESERVED_15: no micro-operation is defined, so no effect (R331, R748). -/
def execEvReserved15 (s : State) : Host.Outcome State Fault Refusal := s.chipStep fun c => microOp c.seq.phase 15 c

/-- EV_RESERVED_16: no micro-operation is defined, so no effect (R331, R748). -/
def execEvReserved16 (s : State) : Host.Outcome State Fault Refusal := s.chipStep fun c => microOp c.seq.phase 16 c

/-- EV_RESERVED_17: no micro-operation is defined, so no effect (R331, R748). -/
def execEvReserved17 (s : State) : Host.Outcome State Fault Refusal := s.chipStep fun c => microOp c.seq.phase 17 c

/-- EV_RESERVED_18: no micro-operation is defined, so no effect (R331, R748). -/
def execEvReserved18 (s : State) : Host.Outcome State Fault Refusal := s.chipStep fun c => microOp c.seq.phase 18 c

/-- EV_RESERVED_19: no micro-operation is defined, so no effect (R331, R748). -/
def execEvReserved19 (s : State) : Host.Outcome State Fault Refusal := s.chipStep fun c => microOp c.seq.phase 19 c

/-- EV_RESERVED_20: no micro-operation is defined, so no effect (R331, R748). -/
def execEvReserved20 (s : State) : Host.Outcome State Fault Refusal := s.chipStep fun c => microOp c.seq.phase 20 c

/-- EV_RESERVED_21: no micro-operation is defined, so no effect (R331, R748). -/
def execEvReserved21 (s : State) : Host.Outcome State Fault Refusal := s.chipStep fun c => microOp c.seq.phase 21 c

/-- EV_RESERVED_22: no micro-operation is defined, so no effect (R331, R748). -/
def execEvReserved22 (s : State) : Host.Outcome State Fault Refusal := s.chipStep fun c => microOp c.seq.phase 22 c

/-- EV_RESERVED_23: no micro-operation is defined, so no effect (R331, R748). -/
def execEvReserved23 (s : State) : Host.Outcome State Fault Refusal := s.chipStep fun c => microOp c.seq.phase 23 c

/-- EV_RESERVED_24: no micro-operation is defined, so no effect (R331, R748). -/
def execEvReserved24 (s : State) : Host.Outcome State Fault Refusal := s.chipStep fun c => microOp c.seq.phase 24 c

/-- EV_RESERVED_25: no micro-operation is defined, so no effect (R331, R748). -/
def execEvReserved25 (s : State) : Host.Outcome State Fault Refusal := s.chipStep fun c => microOp c.seq.phase 25 c

/-- EV_RESERVED_26: no micro-operation is defined, so no effect (R331, R748). -/
def execEvReserved26 (s : State) : Host.Outcome State Fault Refusal := s.chipStep fun c => microOp c.seq.phase 26 c

/-- EV_RESERVED_27: no micro-operation is defined, so no effect (R331, R748). -/
def execEvReserved27 (s : State) : Host.Outcome State Fault Refusal := s.chipStep fun c => microOp c.seq.phase 27 c

/-- EV_RESERVED_28: no micro-operation is defined, so no effect (R331, R748). -/
def execEvReserved28 (s : State) : Host.Outcome State Fault Refusal := s.chipStep fun c => microOp c.seq.phase 28 c

/-- EV_RESERVED_29: no micro-operation is defined, so no effect (R331, R748). -/
def execEvReserved29 (s : State) : Host.Outcome State Fault Refusal := s.chipStep fun c => microOp c.seq.phase 29 c

/-- EV_RESERVED_30: no micro-operation is defined, so no effect (R331, R748). -/
def execEvReserved30 (s : State) : Host.Outcome State Fault Refusal := s.chipStep fun c => microOp c.seq.phase 30 c

/-- EV_RESERVED_31: no micro-operation is defined, so no effect (R331, R748). -/
def execEvReserved31 (s : State) : Host.Outcome State Fault Refusal := s.chipStep fun c => microOp c.seq.phase 31 c

end Sys2Proof.Machine
end

