-- ==== Sys2Proof/Machine/Video.lean ====
section
/-! DEFINITION. Machine.Video: the shift register, the renderers, the output buffer, and the meanings of the RENDER rows
(44_video_pipeline.md). -/

namespace Sys2Proof.Machine

/-! ## Pixels (R913, R915) -/

/-- The default `P_REM` (R915). -/
def defaultRem : Phase → Nat
  | .even => 8
  | .odd => 4

/-- `P_REM` (R915): pixels left of the character at the start of the group, 0..8. -/
def pixelRem (p : Phase) (c : Chip) : Nat :=
  match c.cfg.remLaw with
  | none => defaultRem p
  | some k => (Config.pixelRem k p c.seq.column c.elements).val

/-- `x_j = sr.bitmap[7 - j]` (R913). -/
def pixelBit (sr : ShiftReg) (j : Fin 4) : Bool := bit sr.bitmap (7 - j.val)

/-- The pair of pixel `j`: `sr.bitmap[7:6]` for pixels 0 and 1, `sr.bitmap[5:4]` for pixels 2 and 3 (R913, R925). -/
def pixelPair (sr : ShiftReg) (j : Fin 4) : BitVec 2 :=
  if j.val < 2 then field sr.bitmap 6 2 else field sr.bitmap 4 2

/-- The foreground bit after blinking: an attribute with bit 7 goes dark while FLASH holds (R920, R922). -/
def blink (c : Chip) (x : Bool) : Bool := x && !(bit c.vid.sr.attr 7 && c.flash)

/-- The cursor inverts the foreground bit while FLASH holds (R920, R922). -/
def cursorInvert (c : Chip) (x : Bool) : Bool := Bool.xor x (bit c.vid.sr.flags 0 && c.flash)

/-- The two colours of a bitmap cell (R923, R924). -/
def cellOne (sr : ShiftReg) : Byte := (sr.char &&& 0x0F) ||| (sr.attr &&& 0x70)
def cellZero (sr : ShiftReg) : Byte := (sr.char >>> 4) ||| ((sr.attr &&& 0x07) <<< 4)

/-! ## The renderers (R920-R928): the colour of pixel `j` -/

/-- R920. -/
def colourText (c : Chip) (j : Fin 4) : Byte :=
  let x := cursorInvert c (Bool.xor (blink c (pixelBit c.vid.sr j)) (bit c.vid.sr.flags 1))
  if x then c.vid.sr.attr &&& 0x7F else c.bg 0

/-- R921. -/
def colourMcText (c : Chip) (j : Fin 4) : Byte :=
  if bit c.vid.sr.attr 3 then
    match (pixelPair c.vid.sr j).toNat with
    | 0 => c.bg 0
    | 1 => c.bg 1
    | 2 => c.bg 2
    | _ => c.vid.sr.attr &&& 0x77
  else if pixelBit c.vid.sr j then c.vid.sr.attr &&& 0x77 else c.bg 0

/-- R922: the background is chosen by the two high bits of the character. -/
def colourEcmText (c : Chip) (j : Fin 4) : Byte :=
  if cursorInvert c (blink c (pixelBit c.vid.sr j)) then c.vid.sr.attr &&& 0x7F
  else c.bg (field c.vid.sr.char 6 2).toFin

/-- R923. -/
def colourHiresBmp (c : Chip) (j : Fin 4) : Byte :=
  if pixelBit c.vid.sr j then cellOne c.vid.sr else cellZero c.vid.sr

/-- R924. -/
def colourMcBmp (c : Chip) (j : Fin 4) : Byte :=
  match (pixelPair c.vid.sr j).toNat with
  | 0 => c.bg 0
  | 1 => cellZero c.vid.sr
  | 2 => cellOne c.vid.sr
  | _ => c.bg 1

/-- R926: a free value with bit 7 clear. -/
def colourInvalid (c : Chip) (j : Fin 4) : Byte := Config.invalidColour (c.draws + j.val) &&& 0x7F

/-- The default `P_PIXEL`: the colour of pixel `j` by the renderer (R920-R928). -/
def RenderSel.defaultColour (sel : RenderSel) (c : Chip) (j : Fin 4) : Byte :=
  match sel with
  | .mode .text => colourText c j
  | .mode .mcText => colourMcText c j
  | .mode .ecmText => colourEcmText c j
  | .mode .hiresBmp => colourHiresBmp c j
  | .mode .mcBmp => colourMcBmp c j
  | .mode .invalid => colourInvalid c j
  | .blank => 0
  | .border => c.borderColour

/-- The colour of pixel `j` of a group. -/
def Group.colour (g : Group) (j : Fin 4) : Byte :=
  match j with
  | 0 => g.c0
  | 1 => g.c1
  | 2 => g.c2
  | 3 => g.c3

/-- `P_PIXEL` (R22): the colour of pixel `j` by the renderer, bit 7 clear (R350). -/
def RenderSel.pixel (sel : RenderSel) (rem : Nat) (c : Chip) (j : Fin 4) : Byte :=
  match c.cfg.pixelLaw with
  | none => sel.defaultColour c j
  | some k => (Config.pixels k sel c.vid.sr c.rf.regs c.seq.flashCnt rem).colour j &&& 0x7F

/-- Pixel `j` of the group belongs to the next character (R916). Blank and border show no character. -/
def RenderSel.past (sel : RenderSel) (rem : Nat) (j : Fin 4) : Bool :=
  match sel with
  | .mode _ => decide (rem ≤ j.val)
  | .blank | .border => false

/-- The colour of pixel `j` of the group; a pixel that belongs to the next character is a free value (R916). -/
def RenderSel.colour (sel : RenderSel) (rem : Nat) (c : Chip) (j : Fin 4) : Byte :=
  if sel.past rem j then Config.straddleColour (c.draws + j.val) &&& 0x7F else sel.pixel rem c j

/-- How many free values a group takes. -/
def RenderSel.drawn (sel : RenderSel) (rem : Nat) : Nat :=
  match sel with
  | .blank | .border => 0
  | .mode r => if rem < 4 ∨ r = .invalid then 4 else 0

/-- The four colours of the group, in display order (R900). -/
def RenderSel.group (sel : RenderSel) (rem : Nat) (c : Chip) : Group :=
  ⟨sel.colour rem c 0, sel.colour rem c 1, sel.colour rem c 2, sel.colour rem c 3⟩

/-! ## Records and the output buffer (R950-R961) -/

/-- The group has one colour (R950). -/
def Group.solid (g : Group) : Bool := g.c0 == g.c1 && g.c1 == g.c2 && g.c2 == g.c3

/-- The bytes of a VideoOutputRecord with flags `f`, the SOLID bit at `solidBit` (R351, R950). -/
def Group.record (g : Group) (solidBit : Nat) (f : Byte) : List Byte :=
  if g.solid then [setBit f solidBit, g.c0] else [f, g.c0, g.c1, g.c2, g.c3]

/-- `outPos`: the bytes held are those below it (R153). -/
def Chip.outPos (c : Chip) : Nat := c.vid.outBuf.length

/-- `FLUSH_CHECK()` (R960). -/
def flushCheck (c : Chip) : Chip :=
  if Config.outbufThreshold < c.outPos then
    { c.emit (.video c.vid.outBuf c.outPos) with vid.outBuf := [] }
  else c

/-- `RenderSel` is the border renderer (R951). -/
def RenderSel.isBorder : RenderSel → Bool
  | .border => true
  | .blank | .mode _ => false

/-- `APPEND(R, c0..c3)` (R950). -/
def append (sel : RenderSel) (g : Group) (c : Chip) : Chip :=
  flushCheck { c with vid.outBuf := c.vid.outBuf ++ g.record c.solidBit (c.recordFlags sel.isBorder) }

/-- The shift after a render (R912). -/
def shiftBitmap (c : Chip) : Chip := { c with vid.sr.bitmap := c.vid.sr.bitmap <<< 4 }

/-- The end of every render: the record of the group `g` and the shift (R900, R930). -/
def emitGroup (sel : RenderSel) (rem : Nat) (g : Group) (c : Chip) : Chip :=
  shiftBitmap (append sel g (c.drew (sel.drawn rem)))

/-- One renderer invocation, the renderer reading the flags byte of the shift register (R900, R920-R928). -/
def renderWith (sel : RenderSel) (p : Phase) (c : Chip) : Chip :=
  emitGroup sel (pixelRem p c) (sel.group (pixelRem p c) c) c

/-- `R(sr, regs, flashCnt, P_REM)` of the render step (R930): the renderer's colours, the registers RVSOFF and CURSOR among
`regs` taking effect as R1231 says (log 27). It depends on nothing else of the state (`invoke_congr`). -/
def RenderSel.invoke (sel : RenderSel) (rem : Nat) (c : Chip) : Group :=
  sel.group rem { c with vid.sr.flags := c.flagsNow }

/-- The override check (R930). -/
def renderSelection (c : Chip) : RenderSel :=
  if c.seq.hBlank || c.seq.vBlank then .blank
  else if !c.windowActive then .border
  else .mode c.seq.renderer

/-- The render step, step 5 of a phase (R930). -/
def renderStep (p : Phase) (c : Chip) : Chip :=
  let sel := renderSelection c
  emitGroup sel (pixelRem p c) (sel.invoke (pixelRem p c) c) c

/-- The pixel stream of a record sequence whose SOLID bit is `solidBit`: every record expanded to its four colours (R950).
A sequence that ends inside a record ends there. -/
def pixelStream (solidBit : Nat) : List Byte → List Byte
  | f :: c0 :: rest =>
    if bit f solidBit then c0 :: c0 :: c0 :: c0 :: pixelStream solidBit rest
    else
      match rest with
      | c1 :: c2 :: c3 :: rest' => c0 :: c1 :: c2 :: c3 :: pixelStream solidBit rest'
      | _ => []
  | _ => []

/-- The bytes are whole records, their SOLID bit at `solidBit` (R960: records are never split). -/
def wholeRecords (solidBit : Nat) : List Byte → Bool
  | [] => true
  | f :: _ :: rest =>
    if bit f solidBit then wholeRecords solidBit rest
    else
      match rest with
      | _ :: _ :: _ :: rest' => wholeRecords solidBit rest'
      | _ => false
  | [_] => false

/-! ## The shift-register advance (R910) -/

/-- ODD step 6: the fetched character is loaded and the counters advance; what its flags come from is kept (log 27). -/
def loadShiftReg (c : Chip) : Chip :=
  if h : c.seq.charCol.val < 40 then
    let ch := c.vid.charBuf[c.seq.charCol.val]
    { c with
      vid.sr := ⟨c.vid.attrCur[c.seq.charCol.val], ch, c.vid.fetched, c.srFlags ch, c.flagInputs⟩
      seq.charPos := c.seq.charPos + 1
      seq.charCol := ⟨c.seq.charCol.val + 1, by omega⟩ }
  else c

/-! ## Meanings of the RENDER rows: one invocation of the renderer in the current phase (log 21) -/

/-- RENDER_TEXT: R920. -/
def execRenderText (s : State) : Host.Outcome State Fault Refusal :=
  s.chipStep fun c => renderWith (.mode .text) c.seq.phase c

/-- RENDER_MC_TEXT: R921. -/
def execRenderMcText (s : State) : Host.Outcome State Fault Refusal :=
  s.chipStep fun c => renderWith (.mode .mcText) c.seq.phase c

/-- RENDER_HIRES_BMP: R923. -/
def execRenderHiresBmp (s : State) : Host.Outcome State Fault Refusal :=
  s.chipStep fun c => renderWith (.mode .hiresBmp) c.seq.phase c

/-- RENDER_MC_BMP: R924. -/
def execRenderMcBmp (s : State) : Host.Outcome State Fault Refusal :=
  s.chipStep fun c => renderWith (.mode .mcBmp) c.seq.phase c

/-- RENDER_ECM_TEXT: R922. -/
def execRenderEcmText (s : State) : Host.Outcome State Fault Refusal :=
  s.chipStep fun c => renderWith (.mode .ecmText) c.seq.phase c

/-- RENDER_INVALID_101: R926. -/
def execRenderInvalid101 (s : State) : Host.Outcome State Fault Refusal :=
  s.chipStep fun c => renderWith (.mode (rendererOf true false true)) c.seq.phase c

/-- RENDER_INVALID_110: R926. -/
def execRenderInvalid110 (s : State) : Host.Outcome State Fault Refusal :=
  s.chipStep fun c => renderWith (.mode (rendererOf true true false)) c.seq.phase c

/-- RENDER_INVALID_111: R926. -/
def execRenderInvalid111 (s : State) : Host.Outcome State Fault Refusal :=
  s.chipStep fun c => renderWith (.mode (rendererOf true true true)) c.seq.phase c

/-- RENDER_BLANK: R927; the border and mode bits of the key do not matter (R340). -/
def execRenderBlank (_border : Bool) (_mode : BitVec 3) (s : State) : Host.Outcome State Fault Refusal :=
  s.chipStep fun c => renderWith .blank c.seq.phase c

/-- RENDER_BORDER: R928; the mode bits of the key do not matter (R340). -/
def execRenderBorder (_mode : BitVec 3) (s : State) : Host.Outcome State Fault Refusal :=
  s.chipStep fun c => renderWith .border c.seq.phase c

end Sys2Proof.Machine
end

