-- ==== Sys2Proof/Machine/Sound.lean ====
section
/-! DEFINITION. Machine.Sound: the channels, the noise register, the mix, and the meanings of the two sound steps
(45_sound.md). -/

namespace Sys2Proof.Machine

/-- `OUT(c) = latch & ~silent` (R1000). -/
def Channel.out (ch : Channel) : Bool := ch.latch && !ch.silent

/-- The parity of the low `n` bits of `x`. -/
def parity : Nat → Nat → Bool
  | 0, _ => false
  | n + 1, x => Bool.xor (x.testBit n) (parity n x)

/-- `LFSR_STEP(x)` for the width and taps of the parameters: a left shift, the parity of the tapped bits coming in
(R1022). -/
def lfsrStep (p : Params) (x : Nat) : Nat :=
  (2 * x + (parity p.lfsrWidth (x &&& p.lfsrTaps)).toNat) % 2 ^ p.lfsrWidth

/-- `CHANNEL_STEP` of one channel (R1021), without the clock of the LFSR. -/
def Channel.step (decayTicks : Nat) (ch : Channel) : Channel :=
  if ch.cnt = 0 then { ch with cnt := ch.reload, latch := !ch.latch, decay := 0, silent := false }
  else
    let decay := if ch.decay < decayTicks then ch.decay + 1 else ch.decay
    { ch with cnt := ch.cnt - 1, decay := decay, silent := ch.silent || decide (decay = decayTicks) }

/-- `CHANNEL_STEP(1)`. -/
def stepChannel1 (c : Chip) : Chip := { c with snd.ch1 := c.snd.ch1.step c.cfg.decayTicks }

/-- `CHANNEL_STEP(2)`: its underflow clocks the LFSR (R1021). -/
def stepChannel2 (c : Chip) : Chip :=
  { c with
    snd.ch2 := c.snd.ch2.step c.cfg.decayTicks
    snd.lfsr := if c.snd.ch2.cnt = 0 then lfsrStep c.cfg c.snd.lfsr else c.snd.lfsr }

/-- The index into `P_MIX` (R1030). -/
def mixIndex (c : Chip) : Nat :=
  (field (c.reg 0x11) 4 4 ++ bit1 (c.snd.lfsr.testBit 0) ++ bit1 c.snd.ch2.out ++ bit1 c.snd.ch1.out).toNat

/-- `LEVEL()` (R1030). The tables have an entry for every index (R20, `Params.valid`). -/
def level (c : Chip) : Nat := c.cfg.scaleOf (c.cfg.mix.getD (mixIndex c) 0) (c.cfg.vol.getD c.volume.toNat 0)

/-- The sample of a tick: the distortion table at the sum of the two most recent levels (R1020, R1033). -/
def sampleOf (c : Chip) : BitVec 16 := c.cfg.dist.getD (c.snd.prevLevel + level c) 0

/-- The channels are held in DAC mode (R1020). -/
def stepChannels (c : Chip) : Chip := if c.dacMode then c else stepChannel2 (stepChannel1 c)

/-- The level is mixed, its sample emitted, and it becomes the previous level (R1020). -/
def playLevel (c : Chip) : Chip := { c.emit (.sample (sampleOf c)) with snd.prevLevel := level c }

/-- `SOUND_TICK()` (R1020). -/
def soundTick (c : Chip) : Chip := playLevel (stepChannels c)

/-- `P_DAC_STATE` of one channel (R1010). -/
def Channel.dacForced (d : DacState) (ch : Channel) : Channel :=
  { ch with cnt := d.cnt.getD ch.reload, latch := d.latch, decay := d.decay, silent := d.silent }

/-- `DAC_FORCE()` (R1010). -/
def dacForce (c : Chip) : Chip :=
  { c with snd.ch1 := c.snd.ch1.dacForced c.cfg.dac1, snd.ch2 := c.snd.ch2.dacForced c.cfg.dac2 }

/-- STEP_SOUND_TICK: R1020. -/
def execStepSoundTick (s : State) : Host.Outcome State Fault Refusal := s.chipStep soundTick

/-- STEP_DAC_FORCE: R1010. -/
def execStepDacForce (s : State) : Host.Outcome State Fault Refusal := s.chipStep dacForce

end Sys2Proof.Machine
end

