-- ==== Sys2Proof/Machine/Engine.lean ====
section
/-! DEFINITION. Machine.Engine: the column transitions, the bus steps, the timers, the two phases, the cycle, run(), and
the meanings of the phase steps and of HOST_run (43_cycle_engine.md). -/

namespace Sys2Proof.Machine

/-! ## Column transitions (R812-R826) -/

/-- The default `P_COLUMN_TABLE` (R813): the DMA is requested where `DMALINE` holds and granted where it was requested
(R814, R821). -/
def defaultColumnTable (p : Phase) (c : Chip) : List Transition :=
  match p with
  | .even =>
    match c.seq.column.val with
    | 0 => [.charactersStart]
    | 2 => [.windowStart]
    | 82 => [.windowStop, .singleClockStop]
    | 84 => [.refreshStart]
    | 88 => [.hBlankStart]
    | 94 => [.refreshStop]
    | 96 => [.lineIncrement]
    | 106 => if c.dmaLine then [.dmaRequest] else []
    | 110 => [.hBlankStop]
    | 112 => if c.seq.busMode = .cpuHaltReq then [.dmaGrant] else []
    | _ => []
  | .odd =>
    match c.seq.column.val with
    | 89 => [.hSyncStart]
    | 97 => [.blankAndSync]
    | 99 => [.hSyncStop]
    | _ => []

/-- `P_COLUMN_TABLE(phase, column, state)` (R812). -/
def columnTable (p : Phase) (c : Chip) : List Transition :=
  match c.cfg.columnLaw with
  | none => defaultColumnTable p c
  | some k => Config.columnTable k p c.seq.column c.elements

/-- EVEN column 0: the character cycles of the line begin (R813, R822). -/
def startCharacters (c : Chip) : Chip :=
  { c with seq.charCol := 0, seq.charPos := c.cposReload, seq.scWin := c.seq.winV && c.den }

/-- EVEN column 96: the line increment, and stop-DMA while a DMA is active (R826). -/
def scheduleLine (p : Phase) (c : Chip) : Chip :=
  let c' := (c.schedule p evIncVideoLineBit .half).schedule p evUpdateVsubBit .half
  if c.seq.busMode = .cpuRun then c' else c'.schedule p evStopDmaBit .half

/-- ODD column 97: the vertical blank and sync of the new line, and the flash counter once a frame (R823, R824). -/
def verticalEdges (c : Chip) : Chip :=
  { c with
    seq.vBlank := vbl c.seq.ntsc c.seq.videoLine
    seq.vSync := vsy c.seq.ntsc c.seq.videoLine
    seq.flashCnt := if c.seq.videoLine = 0 then c.seq.flashCnt + 1 else c.seq.flashCnt }

/-- The DMA request (R821). -/
def requestDma (c : Chip) : Chip := { c with seq.busMode := .cpuHaltReq }

/-- The DMA grant (R821). -/
def grantDma (c : Chip) : Chip := { c with seq.busMode := .chipDma }.emit (.setIsCPURunning false)

/-- What a transition does, in phase `p`. No transition moves the line: it is incremented by EV_INC_VIDEO_LINE (R812). -/
def Transition.apply (t : Transition) (p : Phase) (c : Chip) : Chip :=
  match t with
  | .charactersStart => startCharacters c
  | .windowStart => { c with seq.winH := true }
  | .windowStop => { c with seq.winH := false }
  | .singleClockStop => { c with seq.scWin := false }
  | .refreshStart => { c with seq.refresh := true }
  | .refreshStop => { c with seq.refresh := false }
  | .hBlankStart => { c with seq.hBlank := true }
  | .hBlankStop => { c with seq.hBlank := false }
  | .hSyncStart => { c with seq.hSync := true }
  | .hSyncStop => { c with seq.hSync := false }
  | .lineIncrement => scheduleLine p c
  | .blankAndSync => verticalEdges c
  | .dmaRequest => requestDma c
  | .dmaGrant => grantDma c
  | .change x => c.change x

/-- The transitions in table order. -/
def applyTransitions (p : Phase) : List Transition → Chip → Chip
  | [], c => c
  | t :: rest, c => applyTransitions p rest (t.apply p c)

/-- Step 2 of a phase (R810, R811). -/
def columnTransitions (p : Phase) (c : Chip) : Chip :=
  applyTransitions p (columnTable p c) c

/-- The callbacks `l`, in order (R850). -/
def runCallbacks (p : Phase) : List (Nat × Nat) → Chip → Chip
  | [], c => c
  | (cb, ud) :: rest, c => runCallbacks p rest (c.emit (.callback cb ud p c.seq.column))

/-- Step 3 of a phase: the callbacks in registration order (R850). -/
def callbackStep (p : Phase) (c : Chip) : Chip := runCallbacks p c.callbacks c

/-! ## Bus steps (R830-R835) -/

/-- The CPU's script after it has consumed a line (R835). -/
def Chip.setScript (c : Chip) (l : List CpuLine) : Chip := { c with inp.cpuScript := l }

/-- A CPU bus step with RDY high: the next line of the script, whatever it is (R830, R835). -/
def cpuStepHigh (c : Chip) : Chip :=
  let c := c.emit (.runRdyHigh c.cfg.cpuMult)
  match c.inp.cpuScript with
  | [] => c
  | .nop :: rest => c.setScript rest
  | .rd a :: rest => busRead a (c.setScript rest)
  | .wr a v :: rest => busWrite a v (c.setScript rest)

/-- A CPU bus step with RDY low: only a write goes on (R830, R835). -/
def cpuStepLow (c : Chip) : Chip :=
  let c := c.emit (.runRdyLow c.cfg.cpuMult)
  match c.inp.cpuScript with
  | .wr a v :: rest => busWrite a v (c.setScript rest)
  | _ => c

/-- The CHIP_DMA_READ of an attribute byte (R831, R905). -/
def fetchAttr (c : Chip) (h : c.seq.charCol.val < 40) : Chip :=
  let a := c.attrAddr
  { memReadEffect .chipDmaRead a c with
    vid.attrBuf := c.vid.attrBuf.set c.seq.charCol.val (memReadValue .chipDmaRead a c) h }

/-- The CHIP_DMA_READ of a character code, with the attribute of its column (R831, R906). -/
def fetchChar (c : Chip) (h : c.seq.charCol.val < 40) : Chip :=
  let a := c.charAddr
  { memReadEffect .chipDmaRead a c with
    vid.charBuf := c.vid.charBuf.set c.seq.charCol.val (memReadValue .chipDmaRead a c) h
    vid.attrCur := c.vid.attrCur.set c.seq.charCol.val c.vid.attrBuf[c.seq.charCol.val] h }

/-- The EVEN DMA fetch (R831). -/
def dmaFetch (c : Chip) : Chip :=
  if h : c.seq.charCol.val < 40 then if c.seq.charSub = 7 then fetchAttr c h else fetchChar c h else c

/-- The ODD bitmap or character fetch (R832). -/
def bitmapFetch (c : Chip) : Chip :=
  if h : c.seq.charCol.val < 40 then
    if c.seq.winV then
      let a := c.bitmapAddr c.vid.charBuf[c.seq.charCol.val]
      { memReadEffect .chipBitmapRead a c with vid.fetched := memReadValue .chipBitmapRead a c }
    else c
  else c

/-- The EVEN bus step (R833). -/
def evenBusStep (c : Chip) : Chip :=
  match c.seq.busMode with
  | .cpuRun => cpuStepHigh c
  | .cpuHaltReq => cpuStepLow c
  | .chipDma => dmaFetch c

/-- The ODD bus step (R834). -/
def oddBusStep (c : Chip) : Chip :=
  if c.seq.refresh then c
  else if c.singleClock then bitmapFetch c
  else
    match c.seq.busMode with
    | .chipDma => c
    | .cpuRun => cpuStepHigh c
    | .cpuHaltReq => cpuStepLow c

/-! ## Timers (R840, R841) -/

/-- Timer 1 reloads from its latch (R840). -/
def updateTimer1 (c : Chip) : Chip :=
  if c.tmr.run1 then
    if c.tmr.tmr1 = 0 then { c with tmr.tmr1 := c.tmr.latch1 }.raiseIrq 3
    else { c with tmr.tmr1 := c.tmr.tmr1 - 1 }
  else c

/-- Timer 2 runs on from 0xFFFF (R841). -/
def updateTimer2 (c : Chip) : Chip :=
  if c.tmr.run2 then
    if c.tmr.tmr2 = 0 then { c with tmr.tmr2 := 0xFFFF }.raiseIrq 4
    else { c with tmr.tmr2 := c.tmr.tmr2 - 1 }
  else c

/-- Timer 3 runs on from 0xFFFF (R841). -/
def updateTimer3 (c : Chip) : Chip :=
  if c.tmr.run3 then
    if c.tmr.tmr3 = 0 then { c with tmr.tmr3 := 0xFFFF }.raiseIrq 6
    else { c with tmr.tmr3 := c.tmr.tmr3 - 1 }
  else c

/-! ## Phases, cycle, run() -/

/-- `(column + 1) mod 114` (R802). -/
def nextColumn (col : Fin 114) : Fin 114 := if h : col.val + 1 < 114 then ⟨col.val + 1, h⟩ else 0

/-- The column advances and the other phase begins (R802). -/
def endPhase (p : Phase) (c : Chip) : Chip :=
  { c with seq.column := nextColumn c.seq.column, seq.phase := p.other }

/-- A phase begins: its mask is dispatched, its column's transitions and the callbacks run (steps 1 to 3). -/
def beginPhase (p : Phase) (c : Chip) : Chip :=
  callbackStep p (columnTransitions p (dispatch p { c with seq.phase := p }))

/-- `PHASE_EVEN()` (R810). -/
def phaseEven (c : Chip) : Chip :=
  endPhase .even (Chip.interruptCheck (updateTimer1 (renderStep .even (evenBusStep (beginPhase .even c)))))

/-- `PHASE_ODD()` (R811). -/
def phaseOdd (c : Chip) : Chip :=
  endPhase .odd (updateTimer3 (updateTimer2 (loadShiftReg (renderStep .odd (oddBusStep (beginPhase .odd c))))))

/-- The DAC forcing at the end of a cycle (R803). -/
def dacStep (c : Chip) : Chip := if c.dacMode then dacForce c else c

/-- `sndPrescale <- (sndPrescale + 1) mod 8` (R803). -/
def advancePrescale (c : Chip) : Chip := { c with seq.sndPrescale := c.seq.sndPrescale + 1 }

/-- The sound tick of every eighth cycle (R803). -/
def soundStep (c : Chip) : Chip := if c.seq.sndPrescale = 0 then soundTick c else c

/-- The sound steps at the end of a cycle (R803). -/
def cycleEnd (c : Chip) : Chip := soundStep (advancePrescale (dacStep c))

/-- `CYCLE()` (R803). -/
def cycle (c : Chip) : Chip := cycleEnd (phaseOdd (phaseEven c))

/-- `T`, the input-clock ticks of the next cycle (R800). -/
def cycleTicks (ntsc : Bool) : Int := if ntsc then Config.ticksNtsc else Config.ticksPal

/-- The loop of run() (R800), `fuel` bounding its cycles: a budget of `b` ticks runs at most `b` cycles. -/
def runLoop : Nat → Int → Chip → Int × Chip
  | 0, budget, c => (budget, c)
  | fuel + 1, budget, c =>
    if 0 < budget then runLoop fuel (budget - cycleTicks c.seq.ntsc) (cycle c) else (budget, c)

/-- Cycles until the budget is used up (R800). -/
def runBudget (budget : Int) (c : Chip) : Int × Chip := runLoop budget.toNat budget c

/-- `CYCLE n`: `RUN n*T`, with the ticks of the standard it is given (R391). -/
def cycleCall (n : Nat) (ntsc : Bool) : Instr := .hostRun (n * cycleTicks ntsc)

/-! ## Meanings -/

/-- STEP_PHASE_EVEN: R810 (log 19). -/
def execStepPhaseEven (s : State) : Host.Outcome State Fault Refusal := s.chipStep phaseEven

/-- STEP_PHASE_ODD: R811 (log 19). -/
def execStepPhaseOdd (s : State) : Host.Outcome State Fault Refusal := s.chipStep phaseOdd

/-- HOST_run: R800. -/
def execHostRun (ticks : Int) (s : State) : Host.Outcome State Fault Refusal :=
  if ticks < 0 then .next (s.raise .invalidArgument)
  else
    let r := runBudget (s.tickBudget + ticks) s.chip
    .next ({ s with chip := r.2, tickBudget := r.1 }.returns (.ticks r.1))

end Sys2Proof.Machine
end

