-- ==== Sys2Proof/Machine/HostOps.lean ====
section
/-! DEFINITION. Machine.HostOps: the meanings of the host calls but for run(): the memory unit's (40_memory_unit_ops.md),
reset and the snapshots (70_reset_and_hazards.md), the callbacks and the host-direct register access. -/

namespace Sys2Proof.Machine

/-! ## The memory unit -/

/-- The next `P_ALLOC_OK`: the one supplied, or a free value (R404, log 9). -/
def State.allocOk (s : State) : Bool :=
  match s.host.allocDraws with
  | ok :: _ => ok
  | [] => Config.allocOk s.chip.draws

/-- `P_ALLOC_OK` is drawn. -/
def State.drewAlloc (s : State) : State :=
  match s.host.allocDraws with
  | _ :: rest => { s with host.allocDraws := rest }
  | [] => s.onChip (·.drew 1)

/-- HOST_configureRAM: R400. A call that needs no new segment always succeeds (R404). -/
def execHostConfigureRAM (sizeKiB : Int) (fillPattern : Nat) (s : State) : Host.Outcome State Fault Refusal :=
  let size := roundRam sizeKiB
  let ok := fun c => { c with mem := configuredMem c.cfg size fillPattern c.mem }
  if needsAlloc s.chip.cfg size s.chip.mem then
    if s.allocOk then .next ((s.drewAlloc.onChip ok).returns .success)
    else .next (s.drewAlloc.raise .configurationError)
  else .next ((s.onChip ok).returns .success)

/-- HOST_loadROM: R410. -/
def execHostLoadROM (bank offset length : Int) (bytes : Option (List Byte)) (s : State) :
    Host.Outcome State Fault Refusal :=
  .next ((s.onChip (loadRom bank offset length bytes)).returns .nothing)

/-- What resolve returns (R420, R423). -/
def resolveResult (kind : AccessKind) (a : Addr) (c : Chip) : HostResult :=
  match resolve kind a c with
  | none => .openBus
  | some (i, off) => .loc i off

/-- HOST_resolve: R423. -/
def execHostResolve (kind : AccessKind) (a : Addr) (s : State) : Host.Outcome State Fault Refusal :=
  .next (s.returns (resolveResult kind a s.chip))

/-- HOST_getSegmentKind: R430. -/
def execHostGetSegmentKind (sl : Int) (s : State) : Host.Outcome State Fault Refusal :=
  .next (s.returns (.kind (segmentKind sl s.chip.mem)))

/-! ## Reset -/

/-- The next `P_RESET_*` values: the ones supplied, or free values (R1202, log 2). -/
def State.resetDraw (s : State) : ResetDraws :=
  match s.host.resetDraws with
  | d :: _ => d
  | [] => Config.resetDraw s.chip.draws

/-- The `P_RESET_*` are drawn. -/
def State.drewReset (s : State) : State :=
  match s.host.resetDraws with
  | _ :: rest => { s with host.resetDraws := rest }
  | [] => s.onChip (·.drew 1)

/-- A segment as configureRAM would fill it now (R1201). -/
def Segment.refilled (size fillPattern : Nat) : Segment → Segment
  | .ram _ _ => .ram size fillPattern
  | .rom draw => .rom draw

/-- REFILL (R1201): every RAM byte is `P_RAM_FILL(ramSizeKiB, fillPattern, i, off)` again. Without a RAM configuration
there is no RAM. -/
def Memory.refill (m : Memory) : Memory :=
  match m.ramSizeKiB, m.fillPattern with
  | some size, some fp =>
    { m.keepCells (fun i => !m.isRam i) with segs := m.segs.map fun e => (e.1, e.2.refilled size fp) }
  | _, _ => m

/-- RAM at a cold reset (R1201). -/
def coldRamReset (cold : Bool) (c : Chip) : Chip :=
  if cold ∧ c.cfg.coldRam = .refill then { c with mem := c.mem.refill } else c

/-- The sink is told of a changed standard (R1200). -/
def notifyStandard (before : Bool) (c : Chip) : Chip :=
  if c.seq.ntsc = before then c else c.emit (.ntsc c.seq.ntsc)

/-- `reset(cold)` on the chip with the draws `d` (R1200). -/
def resetChip (cold : Bool) (d : ResetDraws) (c : Chip) : Chip :=
  (notifyStandard c.seq.ntsc (coldRamReset cold (c.afterReset d))).emit (.cpuReset cold)

/-- HOST_reset: R1200. -/
def execHostReset (cold : Bool) (s : State) : Host.Outcome State Fault Refusal :=
  .next ({ s.drewReset.onChip (resetChip cold s.resetDraw) with tickBudget := 0 }.returns .nothing)

/-! ## Snapshots -/

/-- The RAM segments and their bytes, with the RAM configuration: the memory part of a snapshot (R1210). -/
def Memory.ramPart (m : Memory) : Memory :=
  { m.keepCells m.isRam with segs := assocKeep m.isRam m.segs }

/-- The snapshot value (R1210). -/
def snapshotOf (s : State) : Snapshot where
  ram := s.chip.mem.ramPart
  lat := s.chip.lat
  rf := s.chip.rf
  seq := s.chip.seq
  tmr := s.chip.tmr
  irq := s.chip.irq
  vid := s.chip.vid
  snd := s.chip.snd
  kbdLatch := s.chip.kbdLatch
  tickBudget := s.tickBudget
  refused := s.chip.refused

/-- The storage after loadState (R1211): the RAM segments of the snapshot, and the chip's own ROM segments. Under a memory
map whose RAMSET meets a ROM slot the two clauses of R1211 conflict: a ROM segment is dropped where the snapshot holds RAM,
and kept where it holds none; no RAM segment is made that the snapshot does not hold (DESIGN CHOICE, log 26). -/
def Memory.withRam (m ram : Memory) : Memory :=
  let own := fun i => m.isRom i && (ram.seg i).isNone
  { segs := assocJoin (assocKeep own m.segs) ram.segs
    cells := assocJoin (m.keepCells own).cells ram.cells
    ramSizeKiB := ram.ramSizeKiB
    fillPattern := ram.fillPattern }

/-- Every saved element of the chip comes from the snapshot; the refused mark is sticky; ROM, callbacks and the model's
own fields are kept (R1211). -/
def Chip.restore (c : Chip) (k : Snapshot) : Chip :=
  { c with
    mem := c.mem.withRam k.ram
    lat := k.lat
    rf := k.rf
    seq := k.seq
    tmr := k.tmr
    irq := k.irq
    vid := k.vid
    snd := k.snd
    kbdLatch := k.kbdLatch
    refused := c.refused || k.refused }

/-- HOST_saveState: R1210. The host holds the snapshot under the next free number (log 17). -/
def execHostSaveState (s : State) : Host.Outcome State Fault Refusal :=
  .next ({ s with host.snapshots := s.host.snapshots ++ [snapshotOf s] }.returns (.snapshot s.host.snapshots.length))

/-- HOST_loadState: R1211. -/
def execHostLoadState (k : Nat) (s : State) : Host.Outcome State Fault Refusal :=
  match s.host.snapshots[k]? with
  | none => .refused (.noSnapshot k)
  | some snap => .next ({ s with chip := s.chip.restore snap, tickBudget := snap.tickBudget }.returns .nothing)

/-! ## Callbacks and host-direct register access -/

/-- HOST_registerCallback: R851. -/
def execHostRegisterCallback (cb userData : Nat) (s : State) : Host.Outcome State Fault Refusal :=
  .next ({ s with chip.callbacks := s.chip.callbacks ++ [(cb, userData)] }.returns .nothing)

/-- HOST_writeRegister: R852, as if in an ODD phase and without a bus transfer. -/
def execHostWriteRegister (o : BitVec 5) (v : Byte) (s : State) : Host.Outcome State Fault Refusal :=
  .next ((s.onChip (writeRule .odd o.toFin v)).returns .nothing)

/-- HOST_readRegister: R853. A read of the keyboard takes its free input (log 7). -/
def execHostReadRegister (o : BitVec 5) (s : State) : Host.Outcome State Fault Refusal :=
  .next ((s.onChip (drewOnRead o.toFin)).returns (.byte (readValue o.toFin s.chip)))

/-! ## Reserved selectors: refused, nothing else changes (R312) -/

/-- HOST_RESERVED_B: R312. -/
def execHostReservedB (s : State) : Host.Outcome State Fault Refusal := s.chipStep (·.refuse)

/-- HOST_RESERVED_C: R312. -/
def execHostReservedC (s : State) : Host.Outcome State Fault Refusal := s.chipStep (·.refuse)

/-- HOST_RESERVED_D: R312. -/
def execHostReservedD (s : State) : Host.Outcome State Fault Refusal := s.chipStep (·.refuse)

/-- HOST_RESERVED_E: R312. -/
def execHostReservedE (s : State) : Host.Outcome State Fault Refusal := s.chipStep (·.refuse)

/-- HOST_RESERVED_F: R312. -/
def execHostReservedF (s : State) : Host.Outcome State Fault Refusal := s.chipStep (·.refuse)

end Sys2Proof.Machine
end

