-- ==== Sys2Proof/Machine/Dispatch.lean ====
section
/-! DEFINITION. Machine.Dispatch: one arm per constructor, each one call of its meaning. -/

namespace Sys2Proof.Machine

/-- What an operation does in a state. -/
def exec (i : Instr) (s : State) : Host.Outcome State Fault Refusal :=
  match i with
  | .rdFF00 => Sys2Proof.Machine.execRdFF00 s
  | .rdFF01 => Sys2Proof.Machine.execRdFF01 s
  | .rdFF02 => Sys2Proof.Machine.execRdFF02 s
  | .rdFF03 => Sys2Proof.Machine.execRdFF03 s
  | .rdFF04 => Sys2Proof.Machine.execRdFF04 s
  | .rdFF05 => Sys2Proof.Machine.execRdFF05 s
  | .rdFF06 => Sys2Proof.Machine.execRdFF06 s
  | .rdFF07 => Sys2Proof.Machine.execRdFF07 s
  | .rdFF08 => Sys2Proof.Machine.execRdFF08 s
  | .rdFF09 => Sys2Proof.Machine.execRdFF09 s
  | .rdFF0A => Sys2Proof.Machine.execRdFF0A s
  | .rdFF0B => Sys2Proof.Machine.execRdFF0B s
  | .rdFF0C => Sys2Proof.Machine.execRdFF0C s
  | .rdFF0D => Sys2Proof.Machine.execRdFF0D s
  | .rdFF0E => Sys2Proof.Machine.execRdFF0E s
  | .rdFF0F => Sys2Proof.Machine.execRdFF0F s
  | .rdFF10 => Sys2Proof.Machine.execRdFF10 s
  | .rdFF11 => Sys2Proof.Machine.execRdFF11 s
  | .rdFF12 => Sys2Proof.Machine.execRdFF12 s
  | .rdFF13 => Sys2Proof.Machine.execRdFF13 s
  | .rdFF14 => Sys2Proof.Machine.execRdFF14 s
  | .rdFF15 => Sys2Proof.Machine.execRdFF15 s
  | .rdFF16 => Sys2Proof.Machine.execRdFF16 s
  | .rdFF17 => Sys2Proof.Machine.execRdFF17 s
  | .rdFF18 => Sys2Proof.Machine.execRdFF18 s
  | .rdFF19 => Sys2Proof.Machine.execRdFF19 s
  | .rdFF1A => Sys2Proof.Machine.execRdFF1A s
  | .rdFF1B => Sys2Proof.Machine.execRdFF1B s
  | .rdFF1C => Sys2Proof.Machine.execRdFF1C s
  | .rdFF1D => Sys2Proof.Machine.execRdFF1D s
  | .rdFF1E => Sys2Proof.Machine.execRdFF1E s
  | .rdFF1F => Sys2Proof.Machine.execRdFF1F s
  | .wrFF00 v => Sys2Proof.Machine.execWrFF00 v s
  | .wrFF01 v => Sys2Proof.Machine.execWrFF01 v s
  | .wrFF02 v => Sys2Proof.Machine.execWrFF02 v s
  | .wrFF03 v => Sys2Proof.Machine.execWrFF03 v s
  | .wrFF04 v => Sys2Proof.Machine.execWrFF04 v s
  | .wrFF05 v => Sys2Proof.Machine.execWrFF05 v s
  | .wrFF06 v => Sys2Proof.Machine.execWrFF06 v s
  | .wrFF07 v => Sys2Proof.Machine.execWrFF07 v s
  | .wrFF08 v => Sys2Proof.Machine.execWrFF08 v s
  | .wrFF09 v => Sys2Proof.Machine.execWrFF09 v s
  | .wrFF0A v => Sys2Proof.Machine.execWrFF0A v s
  | .wrFF0B v => Sys2Proof.Machine.execWrFF0B v s
  | .wrFF0C v => Sys2Proof.Machine.execWrFF0C v s
  | .wrFF0D v => Sys2Proof.Machine.execWrFF0D v s
  | .wrFF0E v => Sys2Proof.Machine.execWrFF0E v s
  | .wrFF0F v => Sys2Proof.Machine.execWrFF0F v s
  | .wrFF10 v => Sys2Proof.Machine.execWrFF10 v s
  | .wrFF11 v => Sys2Proof.Machine.execWrFF11 v s
  | .wrFF12 v => Sys2Proof.Machine.execWrFF12 v s
  | .wrFF13 v => Sys2Proof.Machine.execWrFF13 v s
  | .wrFF14 v => Sys2Proof.Machine.execWrFF14 v s
  | .wrFF15 v => Sys2Proof.Machine.execWrFF15 v s
  | .wrFF16 v => Sys2Proof.Machine.execWrFF16 v s
  | .wrFF17 v => Sys2Proof.Machine.execWrFF17 v s
  | .wrFF18 v => Sys2Proof.Machine.execWrFF18 v s
  | .wrFF19 v => Sys2Proof.Machine.execWrFF19 v s
  | .wrFF1A v => Sys2Proof.Machine.execWrFF1A v s
  | .wrFF1B v => Sys2Proof.Machine.execWrFF1B v s
  | .wrFF1C v => Sys2Proof.Machine.execWrFF1C v s
  | .wrFF1D v => Sys2Proof.Machine.execWrFF1D v s
  | .wrFF1E v => Sys2Proof.Machine.execWrFF1E v s
  | .wrFF1F v => Sys2Proof.Machine.execWrFF1F v s
  | .wrFF3E v => Sys2Proof.Machine.execWrFF3E v s
  | .wrFF3F v => Sys2Proof.Machine.execWrFF3F v s
  | .wrFDDx x v => Sys2Proof.Machine.execWrFDDx x v s
  | .ioRdFD lo => Sys2Proof.Machine.execIoRdFD lo s
  | .ioRdFE lo => Sys2Proof.Machine.execIoRdFE lo s
  | .ioWrFD lo v => Sys2Proof.Machine.execIoWrFD lo v s
  | .ioWrFE lo v => Sys2Proof.Machine.execIoWrFE lo v s
  | .memRd a => Sys2Proof.Machine.execMemRd a s
  | .memWr a v => Sys2Proof.Machine.execMemWr a v s
  | .hostConfigureRAM sizeKiB fillPattern => Sys2Proof.Machine.execHostConfigureRAM sizeKiB fillPattern s
  | .hostLoadROM bank offset length bytes => Sys2Proof.Machine.execHostLoadROM bank offset length bytes s
  | .hostResolve kind a => Sys2Proof.Machine.execHostResolve kind a s
  | .hostGetSegmentKind slot => Sys2Proof.Machine.execHostGetSegmentKind slot s
  | .hostRun ticks => Sys2Proof.Machine.execHostRun ticks s
  | .hostReset cold => Sys2Proof.Machine.execHostReset cold s
  | .hostSaveState => Sys2Proof.Machine.execHostSaveState s
  | .hostLoadState snapshot => Sys2Proof.Machine.execHostLoadState snapshot s
  | .hostRegisterCallback callback userData => Sys2Proof.Machine.execHostRegisterCallback callback userData s
  | .hostWriteRegister offset v => Sys2Proof.Machine.execHostWriteRegister offset v s
  | .hostReadRegister offset => Sys2Proof.Machine.execHostReadRegister offset s
  | .hostReservedB => Sys2Proof.Machine.execHostReservedB s
  | .hostReservedC => Sys2Proof.Machine.execHostReservedC s
  | .hostReservedD => Sys2Proof.Machine.execHostReservedD s
  | .hostReservedE => Sys2Proof.Machine.execHostReservedE s
  | .hostReservedF => Sys2Proof.Machine.execHostReservedF s
  | .stepPhaseEven => Sys2Proof.Machine.execStepPhaseEven s
  | .stepPhaseOdd => Sys2Proof.Machine.execStepPhaseOdd s
  | .stepSoundTick => Sys2Proof.Machine.execStepSoundTick s
  | .stepDacForce => Sys2Proof.Machine.execStepDacForce s
  | .evLoadHpos => Sys2Proof.Machine.execEvLoadHpos s
  | .evLoadCposReload => Sys2Proof.Machine.execEvLoadCposReload s
  | .evLoadVsub => Sys2Proof.Machine.execEvLoadVsub s
  | .evIncVideoLine => Sys2Proof.Machine.execEvIncVideoLine s
  | .evUpdateVsub => Sys2Proof.Machine.execEvUpdateVsub s
  | .evSelectRenderer => Sys2Proof.Machine.execEvSelectRenderer s
  | .evStopDma => Sys2Proof.Machine.execEvStopDma s
  | .evReserved7 => Sys2Proof.Machine.execEvReserved7 s
  | .evReserved8 => Sys2Proof.Machine.execEvReserved8 s
  | .evReserved9 => Sys2Proof.Machine.execEvReserved9 s
  | .evReserved10 => Sys2Proof.Machine.execEvReserved10 s
  | .evReserved11 => Sys2Proof.Machine.execEvReserved11 s
  | .evReserved12 => Sys2Proof.Machine.execEvReserved12 s
  | .evReserved13 => Sys2Proof.Machine.execEvReserved13 s
  | .evReserved14 => Sys2Proof.Machine.execEvReserved14 s
  | .evReserved15 => Sys2Proof.Machine.execEvReserved15 s
  | .evReserved16 => Sys2Proof.Machine.execEvReserved16 s
  | .evReserved17 => Sys2Proof.Machine.execEvReserved17 s
  | .evReserved18 => Sys2Proof.Machine.execEvReserved18 s
  | .evReserved19 => Sys2Proof.Machine.execEvReserved19 s
  | .evReserved20 => Sys2Proof.Machine.execEvReserved20 s
  | .evReserved21 => Sys2Proof.Machine.execEvReserved21 s
  | .evReserved22 => Sys2Proof.Machine.execEvReserved22 s
  | .evReserved23 => Sys2Proof.Machine.execEvReserved23 s
  | .evReserved24 => Sys2Proof.Machine.execEvReserved24 s
  | .evReserved25 => Sys2Proof.Machine.execEvReserved25 s
  | .evReserved26 => Sys2Proof.Machine.execEvReserved26 s
  | .evReserved27 => Sys2Proof.Machine.execEvReserved27 s
  | .evReserved28 => Sys2Proof.Machine.execEvReserved28 s
  | .evReserved29 => Sys2Proof.Machine.execEvReserved29 s
  | .evReserved30 => Sys2Proof.Machine.execEvReserved30 s
  | .evReserved31 => Sys2Proof.Machine.execEvReserved31 s
  | .renderText => Sys2Proof.Machine.execRenderText s
  | .renderMcText => Sys2Proof.Machine.execRenderMcText s
  | .renderHiresBmp => Sys2Proof.Machine.execRenderHiresBmp s
  | .renderMcBmp => Sys2Proof.Machine.execRenderMcBmp s
  | .renderEcmText => Sys2Proof.Machine.execRenderEcmText s
  | .renderInvalid101 => Sys2Proof.Machine.execRenderInvalid101 s
  | .renderInvalid110 => Sys2Proof.Machine.execRenderInvalid110 s
  | .renderInvalid111 => Sys2Proof.Machine.execRenderInvalid111 s
  | .renderBlank border mode => Sys2Proof.Machine.execRenderBlank border mode s
  | .renderBorder mode => Sys2Proof.Machine.execRenderBorder mode s

end Sys2Proof.Machine
end

