-- ==== Sys2Proof/Machine/Step.lean ====
section
/-! DEFINITION. Machine.Step: one step runs the operation at the head of the host's queue (log 14). -/

namespace Sys2Proof.Machine

/-- The state once the operation at the head of the queue is taken from it. -/
def State.withQueue (s : State) (q : List HostCall) : State := { s with host.queue := q }

/-- One step. With nothing queued nothing happens: a host that makes no call stops time (R1134). `CYCLE n` is a run with the
ticks of the standard as it is now (R391). -/
def step (s : State) : Host.Outcome State Fault Refusal :=
  match s.host.queue with
  | [] => .next s
  | .cycle n :: rest => exec (cycleCall n s.chip.seq.ntsc) (s.withQueue rest)
  | .op op :: rest =>
    match decode op.fmt op.bytes with
    | .ok (i, _) => exec i (s.withQueue rest)
    | .error e => .refused (.undecodable e)

/-- A loadState needs a snapshot to load: the state itself, where the host holds none (log 17). -/
def State.withSnapshotFor (s : State) (i : Option Instr) : State :=
  match i, s.host.snapshots with
  | some (.hostLoadState _), [] => { s with host.snapshots := [snapshotOf s] }
  | _, _ => s

/-- The state with a table word as the one operation queued (fixed name of the host's files; log 14). -/
def State.withFetchWord (s : State) (nbits w : Nat) : State :=
  (s.withSnapshotFor (decodeTableWord nbits w)).withQueue [.op (tableOp nbits w)]

end Sys2Proof.Machine
end

