-- ==== Sys2Proof/Machine/Script.lean ====
section
/-! DEFINITION. Machine.Script: the lines of a test program and the pseudo-operations (R390, R391), as the queue of host
calls and the script of the external CPU that they stand for. -/

namespace Sys2Proof.Machine

/-- A line of a program (R390, R391). -/
inductive Line where
  | rd (a : Addr)
  | wr (a : Addr) (v : Byte)
  | wr16 (a : Addr) (v : BitVec 16)
  | nop
  | call (i : Instr)
  | cycle (n : Nat)
deriving DecidableEq, Repr

/-- The lines of the CPU script that a line of the program gives; `WR16` writes the low byte first (R391). -/
def Line.cpu : Line → List CpuLine
  | .rd a => [.rd a]
  | .wr a v => [.wr a v]
  | .wr16 a v => [.wr a (loByte v), .wr (a + 1) (hiByte v)]
  | .nop => [.nop]
  | .call _ => []
  | .cycle _ => []

/-- The host call that a line of the program gives; the ticks of `CYCLE n` are read when it is called (R391). -/
def Line.host : Line → List HostCall
  | .call i => [.op (encode i)]
  | .cycle n => [.cycle n]
  | .rd _ => []
  | .wr _ _ => []
  | .wr16 _ _ => []
  | .nop => []

/-- The CPU script of a program: its lines in order (R390). -/
def cpuScriptOf (p : List Line) : List CpuLine := p.flatMap Line.cpu

/-- The host's queue of a program: its calls in order (R390). -/
def queueOf (p : List Line) : List HostCall := p.flatMap Line.host

/-- A state in which the program is about to be run. -/
def State.load (s : State) (p : List Line) : State :=
  { s with chip.inp.cpuScript := cpuScriptOf p, host.queue := queueOf p }

end Sys2Proof.Machine
end

