-- ==== Sys2Proof/Safety.lean ====
section
/-! DEFINITION. Safety: what the claims call a good state. -/

namespace Sys2Proof

open Sys2Proof.Machine

/-- Only bits 0 to 6 of a delayed-event mask are ever set (R331). -/
def maskOk (m : BitVec 32) : Bool := m &&& 0xFFFFFF80#32 == 0

/-- The masks of a register file (R331). -/
def masksOk (r : RegFile) : Bool := maskOk r.evEven && maskOk r.evOdd

/-- The current standard is the bit `regs[0x07][6]` (R132). -/
def standardOk (r : RegFile) (q : Sequencer) : Bool := q.ntsc == bit r.regs[7] 6

/-- The buffered bytes are whole records and at most the threshold (R960, R153). -/
def videoOk (p : Params) (v : Video) : Bool :=
  decide (v.outBuf.length ≤ Config.outbufThreshold) && wholeRecords p.flagsLayout.solid v.outBuf

/-- The sound unit's bounded elements (R160, R161, R162). -/
def soundOk (p : Params) (s : Sound) : Bool :=
  decide (s.ch1.decay ≤ p.decayTicks) && decide (s.ch2.decay ≤ p.decayTicks) && decide (s.lfsr < 2 ^ p.lfsrWidth) &&
  decide (s.prevLevel ≤ Config.levelMax)

/-- A good state of the chip's elements. -/
def partsOk (p : Params) (r : RegFile) (q : Sequencer) (v : Video) (s : Sound) : Bool :=
  masksOk r && standardOk r q && videoOk p v && soundOk p s

/-- A good state of the chip: its storage is in canonical form and its elements are within their ranges. -/
def chipOk (c : Chip) : Bool := c.mem.wf && partsOk c.cfg c.rf c.seq c.vid c.snd

/-- The storage holds RAM segments only, as the memory part of a snapshot does (R1210). -/
def ramOnly (m : Memory) : Bool := m.segs.all fun e => e.2.isRam

/-- A snapshot that a good state with the parameters `p` could have saved. -/
def snapshotOk (p : Params) (k : Snapshot) : Bool :=
  k.ram.wf && ramOnly k.ram && partsOk p k.rf k.seq k.vid k.snd

/-- A good state: the parameters are ones the spec admits, the chip is good, and every snapshot the host holds is. -/
def Good (s : State) : Bool :=
  s.chip.cfg.valid && chipOk s.chip && s.host.snapshots.all (snapshotOk s.chip.cfg)

/-- The RAM segments of a storage are exactly RAMSET of its RAM size, one of RAM_SIZES (R402, R401); without a RAM
configuration there are none (R1203). -/
def ramLaid (p : Params) (m : Memory) : Bool :=
  match m.ramSizeKiB with
  | none => (List.range Config.segSlots).all fun i => !m.isRam i
  | some size =>
    decide (size ∈ Config.ramSizes) && m.fillPattern.isSome &&
      (List.range Config.segSlots).all fun i => m.isRam i == (ramSet p size).contains i

/-- The slots of the eight ROM banks (R410, R412). -/
def romSlots (p : Params) : List Nat := (List.range 8).map (romSeg p)

/-- ROM segments stand at the slots of the ROM banks only. -/
def romLaid (p : Params) (m : Memory) : Bool := m.segs.all fun e => e.2.isRam || (romSlots p).contains e.1

/-- No RAMSET meets a ROM slot, as under the default map (R402), so that loadROM replaces no RAM (R411). -/
def romApart (p : Params) : Bool :=
  Config.ramSizes.all fun size => (ramSet p size).all fun i => !(romSlots p).contains i

/-- The memory map keeps RAM and ROM apart, and the chip's storage, and the memory part of every snapshot the host holds,
are laid out as configureRAM and loadROM lay them out. -/
def LaidOut (s : State) : Bool :=
  romApart s.chip.cfg && ramLaid s.chip.cfg s.chip.mem && romLaid s.chip.cfg s.chip.mem &&
    s.host.snapshots.all fun k => ramLaid s.chip.cfg k.ram && ramOnly k.ram

end Sys2Proof

/-! ## What a claim says a state becomes, in the state's own fields -/

namespace Sys2Proof.Machine

/-- The CPU has read `v` from `a`: the bus holds it, and the access is in the trace. -/
def State.afterRead (s : State) (a : Addr) (v : Byte) : State :=
  { s with chip.lat.busValue := v, chip.trace := .cpuRead a v :: s.chip.trace }

/-- The CPU has driven `v` to `a`: the bus holds it, and the access is in the trace. -/
def State.afterWrite (s : State) (a : Addr) (v : Byte) : State :=
  { s with chip.lat.busValue := v, chip.trace := .cpuWrite a v :: s.chip.trace }

/-- Register `o` holds `v`. -/
def State.stored (s : State) (o : Fin 32) (v : Byte) : State :=
  { s with chip.rf.regs := s.chip.rf.regs.set o.val v o.isLt }

/-- The bit of micro-operation `b` is set in the mask that a delay `d` in phase `p` names (R710). -/
def State.scheduled (s : State) (p : Phase) (b : Nat) (d : Delay) : State :=
  match d, p with
  | .half, .even => { s with chip.rf.evOdd := s.chip.rf.evOdd ||| (1#32) <<< b }
  | .half, .odd => { s with chip.rf.evEven := s.chip.rf.evEven ||| (1#32) <<< b }
  | .full, .even => { s with chip.rf.evEven := s.chip.rf.evEven ||| (1#32) <<< b }
  | .full, .odd => { s with chip.rf.evOdd := s.chip.rf.evOdd ||| (1#32) <<< b }

/-- A flag at its place in a byte. -/
def flagAt (b : Bool) (place : Fin 8) : Byte := if b then BitVec.ofNat 8 (2 ^ place.val) else 0

/-- The flags byte of a record (R951), without its SOLID bit. -/
def flagsByte (l : FlagsLayout) (q : Sequencer) (border : Bool) : Byte :=
  flagAt q.hBlank l.hBlank ||| flagAt q.vBlank l.vBlank ||| flagAt q.hSync l.hSync ||| flagAt q.vSync l.vSync |||
    flagAt border l.border

/-- The record of the colours `c0 .. c3` with flags `f` and the SOLID bit at `solid` (R950): solid exactly when the four
agree. -/
def recordBytes (solid : Fin 8) (f c0 c1 c2 c3 : Byte) : List Byte :=
  if c0 = c1 ∧ c1 = c2 ∧ c2 = c3 then [f ||| flagAt true solid, c0] else [f, c0, c1, c2, c3]

/-- The state after a renderer has produced the colours `c0 .. c3`: the record is appended, the buffer goes to the sink
once it exceeds 450 bytes, the bitmap shifts by four, and `n` free values have been taken (R900, R950, R960, R912). -/
def State.rendered (s : State) (border : Bool) (n : Nat) (c0 c1 c2 c3 : Byte) : State :=
  let l := s.chip.cfg.flagsLayout
  let buf := s.chip.vid.outBuf ++ recordBytes l.solid (flagsByte l s.chip.seq border) c0 c1 c2 c3
  let full := 450 < buf.length
  { s with
    chip.vid.outBuf := if full then [] else buf
    chip.vid.sr.bitmap := s.chip.vid.sr.bitmap <<< 4
    chip.trace := if full then .video buf buf.length :: s.chip.trace else s.chip.trace
    chip.draws := s.chip.draws + n }

/-- The pixels that remain of the character at a group of the current phase (R915), by default 8 in EVEN and 4 in ODD. -/
def State.remaining (s : State) : Nat :=
  match s.chip.cfg.remLaw, s.chip.seq.phase with
  | none, .even => 8
  | none, .odd => 4
  | some k, p => (Config.pixelRem k p s.chip.seq.column s.chip.elements).val

/-- The state after a renderer of a mode, whose colours for the pixels of the character are `colour`, and which takes `n`
free values for them: the pixels past the character are free values (R916). -/
def State.renderedMode (s : State) (n : Nat) (colour : Nat → Byte) : State :=
  let rem := s.remaining
  let px := fun j => if rem ≤ j then Config.straddleColour (s.chip.draws + j) &&& 0x7F else colour j
  s.rendered false (if rem < 4 then 4 else n) (px 0) (px 1) (px 2) (px 3)

/-- The flags of the shift register as the render step's renderer has them from `sr` and `regs` (R930): as loaded, but a bit whose register (0x0C and
0x0D for the cursor, 0x07 for reverse) has changed since the load is computed from the register as it is (R911, R1231,
log 27). Another P_SR_FLAGS gives its own byte then. -/
def Chip.flagsRead (c : Chip) : Byte :=
  let sr := c.vid.sr
  let loaded := sr.loaded
  let r := c.rf.regs
  let cur := r[0x0C].extractLsb' 0 2 ++ r[0x0D]
  let off := r[0x07].getLsbD 7
  let b0 := if cur = loaded.cursor then sr.flags.getLsbD 0 else decide (loaded.charPos = cur)
  let b1 := if off = loaded.rvsOff then sr.flags.getLsbD 1 else !off && sr.char.getLsbD 7
  match c.cfg.srFlagsLaw with
  | none => sr.flags.extractLsb' 2 6 ++ BitVec.ofBool b1 ++ BitVec.ofBool b0
  | some k => if cur = loaded.cursor ∧ off = loaded.rvsOff then sr.flags else Config.srFlagsNow k sr r

/-- The colours of another `P_PIXEL`, bit 7 clear (R22, R350). -/
def State.pixelsOf (s : State) (k : Nat) (sel : RenderSel) (j : Nat) : Byte :=
  let g := Config.pixels k sel s.chip.vid.sr s.chip.rf.regs s.chip.seq.flashCnt s.remaining
  [g.c0, g.c1, g.c2, g.c3].getD j 0 &&& 0x7F

/-- The state after the state change `x` of a parameter, with the line `line` and the interrupt status `stat`: the elements
that `x` gives and the events it schedules; the CPU is told where the chip takes the bus or gives it back (R821, R746).
Everything else is as it was. -/
def State.changed (s : State) (x : StateChange) (line : BitVec 9) (stat : Byte) : State :=
  let before := s.chip.seq.busMode
  { s with
    chip.lat.cpuRomOn := x.cpuRomOn
    chip.lat.romBankLo := x.romBankLo
    chip.lat.romBankHi := x.romBankHi
    chip.rf.evEven := s.chip.rf.evEven ||| x.evEven.setWidth 32
    chip.rf.evOdd := s.chip.rf.evOdd ||| x.evOdd.setWidth 32
    chip.seq := {
      phase := s.chip.seq.phase, column := s.chip.seq.column, videoLine := line, sndPrescale := s.chip.seq.sndPrescale
      busMode := x.busMode, scWin := x.scWin, winH := x.winH, winV := x.winV, hBlank := x.hBlank, vBlank := x.vBlank
      hSync := x.hSync, vSync := x.vSync, refresh := x.refresh, renderer := x.renderer, charSub := x.charSub
      flashCnt := x.flashCnt, charPos := x.charPos, charCol := x.charCol, ntsc := s.chip.seq.ntsc }
    chip.irq.stat := stat
    chip.vid := ⟨x.sr, x.fetched, x.attrBuf, x.charBuf, x.attrCur, s.chip.vid.outBuf⟩
    chip.trace :=
      match before, x.busMode with
      | .chipDma, .chipDma => s.chip.trace
      | .chipDma, _ => .setIsCPURunning true :: s.chip.trace
      | _, .chipDma => .setIsCPURunning false :: s.chip.trace
      | _, _ => s.chip.trace }

/-- The state after a reset that draws `d` and leaves the storage `m` (R1202): `rest` are the draws still supplied. The
sink is told of a changed standard and the CPU is reset (R1200). -/
def State.afterResetWith (s : State) (cold : Bool) (d : ResetDraws) (rest : List ResetDraws) (m : Memory) : State :=
  let g := s.chip.cfg
  let std := d.regs[7].getLsbD 6
  let lines := if std then g.linesNtsc else g.linesPal
  { s with
    tickBudget := 0
    host.resetDraws := rest
    host.result := .nothing
    chip := { s.chip with
      mem := m
      lat := ⟨true, 0, 0, g.expBank, d.bus⟩
      rf := ⟨d.regs, none, none, none, none, 0, 0⟩
      seq := {
        phase := .even, column := ⟨2 * d.column.val, by omega⟩, videoLine := BitVec.ofNat 9 (d.line.toNat % lines)
        sndPrescale := 0, busMode := .cpuRun, scWin := d.scWin, winH := d.winH, winV := d.winV
        hBlank := d.hBlank, vBlank := d.vBlank, hSync := d.hSync, vSync := d.vSync, refresh := d.refresh
        renderer := d.renderer, charSub := d.charSub, flashCnt := d.flashCnt, charPos := d.charPos
        charCol := d.charCol, ntsc := std }
      tmr := d.tmr
      irq := ⟨d.irqStat, false⟩
      vid := ⟨{ d.sr with loaded := ⟨d.regs[7].getLsbD 7, d.regs[0x0C].extractLsb' 0 2 ++ d.regs[0x0D], d.charPos⟩ }, d.fetched,
        d.attrBuf, d.charBuf, d.attrCur, []⟩
      snd := ⟨{ d.ch1 with decay := min d.ch1.decay g.decayTicks }, { d.ch2 with decay := min d.ch2.decay g.decayTicks },
        g.lfsrSeed, 0⟩
      kbdLatch := d.kbd
      trace := .cpuReset cold :: (if std = s.chip.seq.ntsc then s.chip.trace else .ntsc std :: s.chip.trace) } }

end Sys2Proof.Machine
end

