-- ==== Sys2Proof/Certificates/Slice0/Obligations.lean ====
section
/-! DEFINITION. Obligations: the statements for the provers. Where the spec marks a rule as its own decision or as general
knowledge (log 23), the statement is about that rule of the spec and no claim about the original chip. -/

open Sys2Proof Sys2Proof.Machine

/-! ## Decoding and stepping -/

/-- R300, R301, R310, R320, R330, R340: decoding the bytes the encoder writes gives the operation back, whatever bytes
follow; the operand bytes of a host call are the model's (log 15). -/
def Obligations.EncodedOperationsDecode : Prop :=
  ∀ (i : Instr) (tail : List Byte), i.wellFormed = true →
    decode (encode i).fmt ((encode i).bytes ++ tail) = .ok (i, tail)

/-- R300, R301, R320, R330, R340: what the decoder reads is an operation of the table, taken in its priority order; outside
the host calls, whose operand widths the spec leaves open (log 15), every word has one meaning: the encoder writes the
decoded bytes again. -/
def Obligations.DecodedWordsReencode : Prop :=
  ∀ (f : Fmt) (bs rest : List Byte) (i : Instr), decode f bs = .ok (i, rest) →
    i.wellFormed = true ∧
    (f ≠ .host → encode i = ⟨f, (encode i).bytes⟩ ∧ bs = (encode i).bytes ++ rest)

/-- R300, R301, R310, R320, R330, R340: some words written out from the tables. -/
def Obligations.TableWordsDecode : Prop :=
  decode .bus [0x06, 0xFF, 0x01] = .ok (.rdFF06, []) ∧
  decode .bus [0x06, 0xFF, 0x00, 0x5A] = .ok (.wrFF06 0x5A, []) ∧
  decode .bus [0xDB, 0xFD, 0x00, 0x77] = .ok (.wrFDDx 0xB 0x77, []) ∧
  decode .bus [0xDB, 0xFD, 0x01] = .ok (.ioRdFD 0xDB, []) ∧
  decode .bus [0x3E, 0xFF, 0x01] = .ok (.memRd 0xFF3E, []) ∧
  decode .host [0x05, 0x01] = .ok (.hostReset true, []) ∧
  decode .host [0x0C] = .ok (.hostReservedC, []) ∧
  decode .step [0x02] = .ok (.stepSoundTick, []) ∧
  decode .event [0x04] = .ok (.evUpdateVsub, []) ∧
  decode .render [0x0B] = .ok (.renderBorder 0x3, []) ∧
  decode .render [0x18] = .ok (.renderBlank true 0x0, [])

/-- The model's stepping (log 14): the queued operation at the head is taken off the queue and run; `CYCLE n` is a run of n
times the ticks of the standard at the time of the call (R391); an empty queue changes nothing (R1134); bytes that are no
operation are refused. -/
def Obligations.StepRunsTheQueuedOperation : Prop :=
  (∀ (s : State) (op : OpWord) (rest : List HostCall) (i : Instr) (tail : List Byte),
    s.host.queue = .op op :: rest → decode op.fmt op.bytes = .ok (i, tail) →
      step s = exec i { s with host.queue := rest }) ∧
  (∀ (s : State) (n : Nat) (rest : List HostCall), s.host.queue = .cycle n :: rest →
    step s = exec (.hostRun (n * (if s.chip.seq.ntsc then 16 else 20))) { s with host.queue := rest }) ∧
  (∀ s : State, s.host.queue = [] → step s = .next s) ∧
  (∀ (s : State) (op : OpWord) (rest : List HostCall) (e : DecodeError),
    s.host.queue = .op op :: rest → decode op.fmt op.bytes = .error e → step s = .refused (.undecodable e))

/-- R301, R424, R830: the accesses that a CPU bus step makes from the CPU's script are the BUS rows of their addresses. -/
def Obligations.CpuAccessesAreBusRows : Prop :=
  (∀ (a : Addr) (s : State), exec (decodeBusRead a) s = .next { s with chip := busRead a s.chip }) ∧
  (∀ (a : Addr) (v : Byte) (s : State), exec (decodeBusWrite a v) s = .next { s with chip := busWrite a v s.chip })

/-! ## Properties every step keeps -/

/-- R331, R132, R153, R960, R160, R161, R162, R1034 and the model's storage form (log 10): a good state steps to a good
state. -/
def Obligations.StepKeepsGoodStates : Prop :=
  ∀ s t : State, Good s = true → step s = .next t → Good t = true

/-- The state at reset is good and laid out; it is a created chip (R1203): no segment, no RAM configuration, no callback, no
refused mark; and its parameters are the defaults that the rules state: R210, R212, R330, R502, R580, R740, R951, R1002,
R1010, R1022, R1031, R1032, R1033 (the spec's own values, log 23; the delays, P_COLD_RAM and P_CPU_MULT, for which it
gives none, are the model's, log 3), with the default function wherever another may stand (log 4). -/
def Obligations.ResetStateIsGood : Prop :=
  Good State.reset = true ∧ LaidOut State.reset = true ∧
  (let c := State.reset.chip
   (∀ i, c.mem.seg i = none) ∧ c.mem.ramSizeKiB = none ∧ c.mem.fillPattern = none ∧ c.callbacks = [] ∧ c.refused = false) ∧
  let g := State.reset.chip.cfg
  g.alwaysSet = #v[0x00, 0x00, 0x00, 0x00, 0x00, 0x00, 0x00, 0x00, 0x00, 0x21, 0xA0, 0x00, 0xFC, 0x00, 0x00, 0x00,
    0xFC, 0x00, 0xC0, 0x00, 0x07, 0x80, 0x80, 0x80, 0x80, 0x80, 0xFC, 0x00, 0xFE, 0x00, 0x00, 0x80] ∧
  [g.delayMode, g.delayCpos, g.delayHpos, g.delayVsub] = List.replicate 4 Delay.half ∧ g.coldRam = .keep ∧ g.cpuMult = 1 ∧
  g.slotRanges = [(0x0000, 0x0FFF), (0x1000, 0x3FFF), (0x4000, 0x7FFF), (0x8000, 0xBFFF), (0xC000, 0xFBFF),
    (0xFC00, 0xFCFF), (0xFD00, 0xFEFF), (0xFF00, 0xFFFF)] ∧
  (∀ key : BitVec 12, placeKey g.keyLayout 0 key = key) ∧
  g.eventOrder = List.range 32 ∧
  (∀ col : Fin 114, g.hposRead.getD col.val 0 = BitVec.ofNat 8 (2 * col.val)) ∧
  (∀ v : Byte, g.hposWriteEven.getD v.toNat 0 = ((v >>> 1) &&& 0x7E).toNat ∧
    g.hposWriteOdd.getD v.toNat 0 = ((v >>> 1) &&& 0x7E ||| 1).toNat) ∧
  (∀ n : BitVec 4, g.flashOn.getLsbD n.toNat = n.getLsbD 3) ∧
  g.flagsLayout = ⟨0, 1, 2, 3, 4, 5⟩ ∧
  (∀ f : BitVec 10, g.reload.getD f.toNat 0 = 0x3FF - f) ∧
  (∀ v : Fin 16, g.vol.getD v.val 0 = min v.val 8) ∧
  (∀ m < 3, ∀ v < 9, (g.scale.getD m []).getD v 0 = m * v * 75 / 8) ∧
  (∀ n : Fin 301, (g.dist.getD n.val 0).toInt = 200 * (n.val : Int) - 30000) ∧
  (∀ i : BitVec 7, g.mix.getD i.toNat 0 = (i.getLsbD 3 && i.getLsbD 0).toNat +
    (if i.getLsbD 4 then i.getLsbD 1 else i.getLsbD 5 && i.getLsbD 2).toNat) ∧
  (∀ x : Byte, BitVec.ofNat 8 (lfsrStep g x.toNat) =
    (x <<< 1) ||| ((x >>> 7 ^^^ x >>> 5 ^^^ x >>> 4 ^^^ x >>> 3) &&& 1)) ∧
  g.lfsrSeed = 0xFF ∧ g.decayTicks = 1024 ∧ g.dac1 = ⟨none, true, 0, false⟩ ∧ g.dac2 = ⟨none, true, 0, false⟩ ∧
  g.linesPal = 312 ∧ g.linesNtsc = 262 ∧ g.expBank = 0 ∧ g.memoryMap = none ∧
  [g.columnLaw, g.incLineLaw, g.vsubLaw, g.fetchLaw, g.srFlagsLaw, g.remLaw, g.pixelLaw, g.ioReadLaw, g.ioWriteLaw] =
    List.replicate 9 none

/-- R402, R411, R412, R1211: where the memory map keeps the RAMSETs and the ROM slots apart, as the default map does, RAM
segments are exactly RAMSET of the RAM size and ROM segments stand in the ROM slots, in the chip and in every snapshot
held, after every step. -/
def Obligations.StepKeepsTheSegmentLayout : Prop :=
  ∀ s t : State, Good s = true → LaidOut s = true → step s = .next t → LaidOut t = true

/-- R46, R172: the refused mark is never cleared, and execution goes on (the model's reading, log 12); R173: the
parameters are no state; the calls observed so far stay (R45, log 18). -/
def Obligations.StepKeepsMarkParametersAndTrace : Prop :=
  ∀ s t : State, step s = .next t →
    (s.chip.refused = true → t.chip.refused = true) ∧ t.chip.cfg = s.chip.cfg ∧
      ∃ es, t.chip.trace = es ++ s.chip.trace

/-- R171, R851, R850: only registerCallback changes the callbacks, and it appends; step 3 of a phase calls every one of
them, in registration order, and does nothing else. -/
def Obligations.CallbackRegistrationAndCalls : Prop :=
  (∀ (i : Instr) (s t : State), exec i s = .next t →
    match i with
    | .hostRegisterCallback cb ud => t.chip.callbacks = s.chip.callbacks ++ [(cb, ud)]
    | _ => t.chip.callbacks = s.chip.callbacks) ∧
  ∀ (p : Phase) (c : Chip), callbackStep p c = { c with
    trace := (c.callbacks.map fun e => Event.callback e.1 e.2 p c.seq.column).reverse ++ c.trace }

/-- R244, R406, R1201, R1211: ROM segments and their bytes change only through loadROM. -/
def Obligations.RomChangesOnlyByLoadRom : Prop :=
  ∀ (i : Instr) (s t : State), Good s = true → LaidOut s = true → exec i s = .next t →
    (∀ b o l bs, i ≠ .hostLoadROM b o l bs) →
      ∀ k off, off < 16384 → s.chip.mem.isRom k = true →
        t.chip.mem.isRom k = true ∧ t.chip.mem.read k off = s.chip.mem.read k off

/-- R1100, R1121: every operation has a next state, but for a loadState whose operand names no snapshot that the host
holds (log 17); the model never faults. -/
def Obligations.EveryOperationCompletes : Prop :=
  ∀ (i : Instr) (s : State), (∃ t, exec i s = .next t) ∨
    ∃ k, i = .hostLoadState k ∧ s.host.snapshots.length ≤ k ∧ exec i s = .refused (.noSnapshot k)

/-! ## run(), cycles and phases -/

/-- R804: running twice is running once with the sum. -/
def Obligations.RunSplits : Prop :=
  ∀ (s t u : State) (n m : Int), 0 ≤ n → 0 ≤ m → exec (.hostRun n) s = .next t → exec (.hostRun m) t = .next u →
    exec (.hostRun (n + m)) s = .next u

/-- R800: a negative count is an error and changes nothing else; with the budget used up run() returns it; while it is
positive a cycle runs and costs 16 or 20 ticks by the standard at its start. R803: a cycle is its two phases, the DAC
forcing in DAC mode, and a sound tick every eighth cycle (the place of the sound steps is the spec's choice). R391: n
times a cycle's ticks run exactly n cycles where no tick is carried and the standard stays the same. -/
def Obligations.RunUnrollsCycles : Prop :=
  (∀ (s : State) (n : Int),
    (n < 0 → exec (.hostRun n) s = .next { s with host.result := .error .invalidArgument }) ∧
    (0 ≤ n → s.tickBudget + n ≤ 0 → exec (.hostRun n) s =
      .next { s with tickBudget := s.tickBudget + n, host.result := .ticks (s.tickBudget + n) }) ∧
    (0 ≤ n → 0 < s.tickBudget + n → exec (.hostRun n) s =
      exec (.hostRun 0) { s with
        chip := cycle s.chip
        tickBudget := s.tickBudget + n - (if s.chip.seq.ntsc then 16 else 20) })) ∧
  (∀ (s : State) (n : Nat), s.tickBudget = 0 →
    (∀ j < n, (cycle^[j] s.chip).seq.ntsc = s.chip.seq.ntsc) →
      exec (.hostRun (n * (if s.chip.seq.ntsc then 16 else 20))) s =
        .next { s with chip := cycle^[n] s.chip, host.result := .ticks 0 }) ∧
  ∀ s s1 s2 s3 : State, exec .stepPhaseEven s = .next s1 → exec .stepPhaseOdd s1 = .next s2 →
    exec .stepDacForce s2 = .next s3 →
    let c := if s2.chip.rf.regs[0x11].getLsbD 7 then s3.chip else s2.chip
    let d := { c with seq.sndPrescale := c.seq.sndPrescale + 1 }
    ∀ u : State, exec .stepSoundTick { s2 with chip := d } = .next u →
      cycle s.chip = if d.seq.sndPrescale = 0 then u.chip else d

/-- R800, R801, R802: run() returns the carry, which is at most 0 and, where it ran cycles, above minus the ticks of the
last of them (16 or 20 by the standard at its start), and stops at a cycle boundary: an EVEN phase at an even column stays
one (R121: the column a horizontal-position write names has the parity of its phase, which the admitted tables keep). -/
def Obligations.RunStopsAtCycleBoundaries : Prop :=
  ∀ (s : State) (n : Int), 0 ≤ n → ∃ t, exec (.hostRun n) s = .next t ∧
    t.host.result = .ticks t.tickBudget ∧ t.tickBudget ≤ 0 ∧
    (0 < s.tickBudget + n → ∃ j : Nat, t.chip = cycle^[j + 1] s.chip ∧
      -(if (cycle^[j] s.chip).seq.ntsc then 16 else 20 : Int) < t.tickBudget) ∧
    (s.chip.seq.phase = .even → t.chip.seq.phase = .even) ∧
    (s.chip.cfg.valid = true → s.chip.seq.phase = .even → s.chip.seq.column.val % 2 = 0 →
      t.chip.seq.column.val % 2 = 0)

/-- R810, R811: the order of the steps of the two phases, in the phase each belongs to; the column counts modulo 114. -/
def Obligations.PhaseStepsRunInOrder : Prop :=
  (∀ s : State, s.chip.seq.phase = .even → exec .stepPhaseEven s = .next { s with chip :=
    let c1 := dispatch .even s.chip
    let c2 := columnTransitions .even c1
    let c3 := callbackStep .even c2
    let c4 := evenBusStep c3
    let c5 := renderStep .even c4
    let c6 := updateTimer1 c5
    let c7 := c6.interruptCheck
    { c7 with seq.column := c7.seq.column + 1, seq.phase := .odd } }) ∧
  (∀ s : State, s.chip.seq.phase = .odd → exec .stepPhaseOdd s = .next { s with chip :=
    let c1 := dispatch .odd s.chip
    let c2 := columnTransitions .odd c1
    let c3 := callbackStep .odd c2
    let c4 := oddBusStep c3
    let c5 := renderStep .odd c4
    let c6 := loadShiftReg c5
    let c7 := updateTimer2 c6
    let c8 := updateTimer3 c7
    { c8 with seq.column := c8.seq.column + 1, seq.phase := .even } })

/-- R813, R814: the default column table, column by column, DMALINE written out (the spec's own construction, log 23); R812:
another table is the list of transitions that the parameter gives for the phase, the column and the state, in order, among
them any state change; the line is left to EV_INC_VIDEO_LINE (R181, log 4). -/
def Obligations.ColumnTransitions : Prop :=
  (∀ (p : Phase) (c : Chip), c.cfg.columnLaw = none → (p, c.seq.column.val) ∉
      [(Phase.even, 0), (.even, 2), (.even, 82), (.even, 84), (.even, 88), (.odd, 89), (.even, 94), (.even, 96), (.odd, 97),
        (.odd, 99), (.even, 106), (.even, 110), (.even, 112)] → columnTransitions p c = c) ∧
  (∀ c : Chip, c.cfg.columnLaw = none →
    (c.seq.column = 0 → columnTransitions .even c = { c with
      seq.charCol := 0, seq.charPos := field c.rf.regs[0x1A] 0 2 ++ c.rf.regs[0x1B]
      seq.scWin := c.seq.winV && bit c.rf.regs[0x06] 4 }) ∧
    (c.seq.column = 2 → columnTransitions .even c = { c with seq.winH := true }) ∧
    (c.seq.column = 82 → columnTransitions .even c = { c with seq.winH := false, seq.scWin := false }) ∧
    (c.seq.column = 84 → columnTransitions .even c = { c with seq.refresh := true }) ∧
    (c.seq.column = 88 → columnTransitions .even c = { c with seq.hBlank := true }) ∧
    (c.seq.column = 89 → columnTransitions .odd c = { c with seq.hSync := true }) ∧
    (c.seq.column = 94 → columnTransitions .even c = { c with seq.refresh := false }) ∧
    (c.seq.column = 96 → columnTransitions .even c = { c with
      rf.evOdd := c.rf.evOdd ||| (if c.seq.busMode = .cpuRun then 0x18#32 else 0x58#32) }) ∧
    (c.seq.column = 97 → columnTransitions .odd c = { c with
      seq.vBlank := if c.seq.ntsc then 226#9 ≤ c.seq.videoLine && c.seq.videoLine ≤ 244#9
        else 251#9 ≤ c.seq.videoLine && c.seq.videoLine ≤ 269#9
      seq.vSync := if c.seq.ntsc then 229#9 ≤ c.seq.videoLine && c.seq.videoLine ≤ 232#9
        else 254#9 ≤ c.seq.videoLine && c.seq.videoLine ≤ 257#9
      seq.flashCnt := if c.seq.videoLine = 0 then c.seq.flashCnt + 1 else c.seq.flashCnt }) ∧
    (c.seq.column = 99 → columnTransitions .odd c = { c with seq.hSync := false }) ∧
    (c.seq.column = 106 →
      let den := bit c.rf.regs[0x06] 4 = true
      let rsel := bit c.rf.regs[0x06] 3
      let charLine := c.seq.winV = true ∧ c.seq.charSub = 0
      let attrLine := c.seq.charSub = 7 ∧
        ((c.seq.winV = true ∧ c.seq.videoLine.toNat + 1 ≠ if rsel then 204 else 200) ∨
          c.seq.videoLine.toNat + 1 = if rsel then 4 else 8)
      columnTransitions .even c = if den ∧ (charLine ∨ attrLine) then { c with seq.busMode := .cpuHaltReq } else c) ∧
    (c.seq.column = 110 → columnTransitions .even c = { c with seq.hBlank := false }) ∧
    (c.seq.column = 112 → columnTransitions .even c =
      if c.seq.busMode = .cpuHaltReq then
        { c with seq.busMode := .chipDma, trace := .setIsCPURunning false :: c.trace }
      else c)) ∧
  (∀ (p : Phase) (c : Chip) (k : Nat), c.cfg.columnLaw = some k → columnTransitions p c =
    (Config.columnTable k p c.seq.column c.elements).foldl (fun d t => t.apply p d) c) ∧
  ∀ (p : Phase) (s : State) (x : StateChange),
    (Transition.change x).apply p s.chip = (s.changed x s.chip.seq.videoLine s.chip.irq.stat).chip

/-- R833, R834, R835, R830, R831, R832: who has each bus step, and what the CPU's script may do in it: an EVEN step, or an
ODD step without refresh and single clock, is a CPU step with RDY high or low unless the chip has the bus; a refresh step,
an ODD step while the chip has the bus, and a fetch step once the line's characters are done are idle (log 13). -/
def Obligations.BusStepsFollowTheBusMode : Prop :=
  (∀ (c : Chip) (busStep : Chip → Chip),
    (busStep = evenBusStep ∨
      busStep = oddBusStep ∧ c.seq.refresh = false ∧ bit c.rf.regs[0x13] 1 = false ∧ c.seq.scWin = false) →
    let high := { c with trace := .runRdyHigh c.cfg.cpuMult :: c.trace }
    let low := { c with trace := .runRdyLow c.cfg.cpuMult :: c.trace }
    (c.seq.busMode = .cpuRun →
      (c.inp.cpuScript = [] → busStep c = high) ∧
      (∀ rest, c.inp.cpuScript = .nop :: rest → busStep c = { high with inp.cpuScript := rest }) ∧
      (∀ a rest, c.inp.cpuScript = .rd a :: rest → busStep c = busRead a { high with inp.cpuScript := rest }) ∧
      (∀ a v rest, c.inp.cpuScript = .wr a v :: rest → busStep c = busWrite a v { high with inp.cpuScript := rest })) ∧
    (c.seq.busMode = .cpuHaltReq →
      (c.inp.cpuScript = [] → busStep c = low) ∧
      (∀ rest, c.inp.cpuScript = .nop :: rest → busStep c = low) ∧
      (∀ a rest, c.inp.cpuScript = .rd a :: rest → busStep c = low) ∧
      (∀ a v rest, c.inp.cpuScript = .wr a v :: rest → busStep c = busWrite a v { low with inp.cpuScript := rest }))) ∧
  (∀ c : Chip, c.seq.busMode = .chipDma → c.seq.charCol = 40 → evenBusStep c = c) ∧
  (∀ c : Chip, c.seq.refresh = true → oddBusStep c = c) ∧
  (∀ c : Chip, c.seq.refresh = false → (bit c.rf.regs[0x13] 1 = true ∨ c.seq.scWin = true) →
    (c.seq.charCol = 40 ∨ c.seq.winV = false) → oddBusStep c = c) ∧
  (∀ c : Chip, c.seq.refresh = false → bit c.rf.regs[0x13] 1 = false → c.seq.scWin = false → c.seq.busMode = .chipDma →
    oddBusStep c = c)

/-- R831, R832, R905, R906, R907: what the chip fetches, from where, and where the byte goes, while a character remains on
the line: attributes on the last line of a row and characters on its other lines while the chip has the bus, and the bitmap
or character-generator byte in the ODD step (the default addresses are the spec's own, log 23; another P_FETCH_ADDR gives
its own, log 4). -/
def Obligations.ChipFetches : Prop :=
  ∀ (c : Chip) (h : c.seq.charCol.val < 40),
    let r := c.rf.regs
    let q := c.seq
    let source := fun (f : Fetch) (a : Addr) =>
      match c.cfg.fetchLaw with
      | none => a
      | some k => Config.fetchAddr k f c.elements
    let matrix : Addr := (r[0x14] &&& 0xF8) ++ 0#8
    let ahead : BitVec 10 := if q.winV then q.charPos + 40 else q.charPos
    let attr := memReadValue .chipDmaRead (source .attr (matrix + ahead.setWidth 16)) c
    let char := memReadValue .chipDmaRead (source .char (matrix + 0x400 + q.charPos.setWidth 16)) c
    let code := c.vid.charBuf[q.charCol.val]
    let invalid := decide (q.renderer = .invalid)
    let bmp := decide (q.renderer = .hiresBmp ∨ q.renderer = .mcBmp) || (invalid && r[0x06].getLsbD 5)
    let ecm := decide (q.renderer = .ecmText) || (invalid && !r[0x06].getLsbD 5)
    let glyph : Byte := if ecm then code &&& 0x3F else if r[0x07].getLsbD 7 then code else code &&& 0x7F
    let cell : Addr := if bmp then (r[0x12].extractLsb' 3 3 ++ 0#13) + (q.charPos ++ 0#3).setWidth 16
      else ((r[0x13] &&& 0xFC) ++ 0#8) + (glyph ++ 0#3).setWidth 16
    let bits := memReadValue .chipBitmapRead (source .bitmap (cell + q.charSub.setWidth 16)) c
    (q.busMode = .chipDma → q.charSub = 7 → evenBusStep c = { c with
      lat.busValue := attr, vid.attrBuf := c.vid.attrBuf.set q.charCol.val attr h }) ∧
    (q.busMode = .chipDma → q.charSub ≠ 7 → evenBusStep c = { c with
      lat.busValue := char
      vid.charBuf := c.vid.charBuf.set q.charCol.val char h
      vid.attrCur := c.vid.attrCur.set q.charCol.val c.vid.attrBuf[q.charCol.val] h }) ∧
    (q.refresh = false → (r[0x13].getLsbD 1 = true ∨ q.scWin = true) → oddBusStep c =
      if q.winV then { c with lat.busValue := bits, vid.fetched := bits } else c)

/-! ## Register reads -/

/-- R556, R557, R560 to R568, R570 to R575, in the form of R506: these reads return the stored byte with the always-set
bits; the bus holds it and nothing else changes. -/
def Obligations.StoredRegisterReads : Prop :=
  ∀ s : State, ∀ p ∈ [(Instr.rdFF06, (0x06 : Fin 32)), (.rdFF07, 0x07), (.rdFF0A, 0x0A), (.rdFF0B, 0x0B), (.rdFF0C, 0x0C),
      (.rdFF0D, 0x0D), (.rdFF0E, 0x0E), (.rdFF0F, 0x0F), (.rdFF10, 0x10), (.rdFF11, 0x11), (.rdFF12, 0x12),
      (.rdFF14, 0x14), (.rdFF15, 0x15), (.rdFF16, 0x16), (.rdFF17, 0x17), (.rdFF18, 0x18), (.rdFF19, 0x19)],
    exec p.1 s = .next (s.afterRead (0xFF00#16 + BitVec.ofNat 16 p.2.val)
      (s.chip.rf.regs[p.2] ||| s.chip.cfg.alwaysSet[p.2]))

/-- R550 to R555, R558, R559, R569, R578, R579: the timer counters; the keyboard input (a free value of the read, log 7);
the interrupt status, with bit 7 computed at the read and nothing acknowledged; the ROM status; the video line (the
spec's own register map, log 23). -/
def Obligations.LiveRegisterReads : Prop :=
  ∀ s : State, let c := s.chip; let t := s.chip.tmr; let z := s.chip.cfg.alwaysSet
    exec .rdFF00 s = .next (s.afterRead 0xFF00 (t.tmr1.extractLsb' 0 8 ||| z[0])) ∧
    exec .rdFF01 s = .next (s.afterRead 0xFF01 (t.tmr1.extractLsb' 8 8 ||| z[1])) ∧
    exec .rdFF02 s = .next (s.afterRead 0xFF02 (t.tmr2.extractLsb' 0 8 ||| z[2])) ∧
    exec .rdFF03 s = .next (s.afterRead 0xFF03 (t.tmr2.extractLsb' 8 8 ||| z[3])) ∧
    exec .rdFF04 s = .next (s.afterRead 0xFF04 (t.tmr3.extractLsb' 0 8 ||| z[4])) ∧
    exec .rdFF05 s = .next (s.afterRead 0xFF05 (t.tmr3.extractLsb' 8 8 ||| z[5])) ∧
    exec .rdFF08 s = .next { s.afterRead 0xFF08 (Config.keyboardIn c.draws c.kbdLatch ||| z[0x08]) with
      chip.draws := c.draws + 1 } ∧
    exec .rdFF09 s = .next (s.afterRead 0xFF09 (((c.irq.stat &&& 0x5E) |||
      (if c.irq.stat &&& c.rf.regs[0x0A] &&& 0x5E = 0 then 0x00 else 0x80)) ||| z[0x09])) ∧
    exec .rdFF13 s = .next (s.afterRead 0xFF13 (((c.rf.regs[0x13] &&& 0xFE) |||
      (if c.lat.cpuRomOn then 0x01 else 0x00)) ||| z[0x13])) ∧
    exec .rdFF1C s = .next (s.afterRead 0xFF1C ((c.seq.videoLine >>> 8).setWidth 8 ||| z[0x1C])) ∧
    exec .rdFF1D s = .next (s.afterRead 0xFF1D (c.seq.videoLine.setWidth 8 ||| z[0x1D]))

/-- R504, R576, R577, R580, R581: a read of a delayed register returns the AND of the old and the pending value while a
change is in flight (the offsets are the spec's assignment, log 23; the byte of a column is P_HPOS_READ's, whose default is
stated with the state at reset). -/
def Obligations.ReadsRaceWithPendingWrites : Prop :=
  ∀ s : State, let c := s.chip; let z := s.chip.cfg.alwaysSet
    exec .rdFF1A s = .next (s.afterRead 0xFF1A ((c.rf.regs[0x1A] &&& c.rf.pend1A.getD 0xFF) ||| z[0x1A])) ∧
    exec .rdFF1B s = .next (s.afterRead 0xFF1B ((c.rf.regs[0x1B] &&& c.rf.pend1B.getD 0xFF) ||| z[0x1B])) ∧
    exec .rdFF1E s = .next (s.afterRead 0xFF1E
      ((c.cfg.hposRead.getD c.seq.column.val 0 &&& c.rf.pend1E.getD 0xFF) ||| z[0x1E])) ∧
    exec .rdFF1F s = .next (s.afterRead 0xFF1F
      (((0#1 ++ c.seq.flashCnt ++ c.seq.charSub) &&& c.rf.pend1F.getD 0xFF) ||| z[0x1F]))

/-! ## Register writes -/

/-- R510 to R515: a low byte stops its timer, a high byte starts it; timer 1 goes through its latch (the spec's own
choice, log 23). -/
def Obligations.TimerWrites : Prop :=
  ∀ (s : State) (v : Byte), let t := s.chip.tmr
    exec (.wrFF00 v) s = .next { (s.afterWrite 0xFF00 v).stored 0x00 v with
      chip.tmr := { t with latch1 := t.latch1.extractLsb' 8 8 ++ v, run1 := false } } ∧
    exec (.wrFF01 v) s = .next { (s.afterWrite 0xFF01 v).stored 0x01 v with
      chip.tmr := { t with latch1 := v ++ t.latch1.extractLsb' 0 8, tmr1 := v ++ t.latch1.extractLsb' 0 8
                           run1 := true } } ∧
    exec (.wrFF02 v) s = .next { (s.afterWrite 0xFF02 v).stored 0x02 v with
      chip.tmr := { t with tmr2 := t.tmr2.extractLsb' 8 8 ++ v, run2 := false } } ∧
    exec (.wrFF03 v) s = .next { (s.afterWrite 0xFF03 v).stored 0x03 v with
      chip.tmr := { t with tmr2 := v ++ t.tmr2.extractLsb' 0 8, run2 := true } } ∧
    exec (.wrFF04 v) s = .next { (s.afterWrite 0xFF04 v).stored 0x04 v with
      chip.tmr := { t with tmr3 := t.tmr3.extractLsb' 8 8 ++ v, run3 := false } } ∧
    exec (.wrFF05 v) s = .next { (s.afterWrite 0xFF05 v).stored 0x05 v with
      chip.tmr := { t with tmr3 := v ++ t.tmr3.extractLsb' 0 8, run3 := true } }

/-- R520 to R523, R527, R529 to R535: these writes store the byte and do nothing else at once. -/
def Obligations.StoringRegisterWrites : Prop :=
  ∀ (s : State) (v : Byte), ∀ p ∈ [(Instr.wrFF0A v, (0x0A : Fin 32)), (.wrFF0B v, 0x0B), (.wrFF0C v, 0x0C),
      (.wrFF0D v, 0x0D), (.wrFF11 v, 0x11), (.wrFF13 v, 0x13), (.wrFF14 v, 0x14), (.wrFF15 v, 0x15), (.wrFF16 v, 0x16),
      (.wrFF17 v, 0x17), (.wrFF18 v, 0x18), (.wrFF19 v, 0x19)],
    exec p.1 s = .next ((s.afterWrite (0xFF00#16 + BitVec.ofNat 16 p.2.val) v).stored p.2 v)

/-- R518, R519, R538, R539: the keyboard latch; writing 1 to a status bit clears it, writing 0 leaves it; a write of the
video line takes effect at once (the spec's own choices, log 23). -/
def Obligations.LatchStatusAndLineWrites : Prop :=
  ∀ (s : State) (v : Byte),
    exec (.wrFF08 v) s = .next { (s.afterWrite 0xFF08 v).stored 0x08 v with chip.kbdLatch := v } ∧
    exec (.wrFF09 v) s = .next { (s.afterWrite 0xFF09 v).stored 0x09 v with
      chip.irq.stat := s.chip.irq.stat &&& ~~~(v &&& 0x5E) } ∧
    exec (.wrFF1C v) s = .next { (s.afterWrite 0xFF1C v).stored 0x1C v with
      chip.seq.videoLine := v.extractLsb' 0 1 ++ s.chip.seq.videoLine.extractLsb' 0 8 } ∧
    exec (.wrFF1D v) s = .next { (s.afterWrite 0xFF1D v).stored 0x1D v with
      chip.seq.videoLine := s.chip.seq.videoLine.extractLsb' 8 1 ++ v }

/-- R524, R525, R526, R528, R1001, R1002: a frequency write recomputes the channel's reload value; the counter is not
touched (P_RELOAD is a parameter; its default is stated with the state at reset, log 3). -/
def Obligations.FrequencyWrites : Prop :=
  ∀ (s : State) (v : Byte), let r := s.chip.rf.regs
    let reload := fun f : BitVec 10 => s.chip.cfg.reload.getD f.toNat 0
    exec (.wrFF0E v) s = .next { (s.afterWrite 0xFF0E v).stored 0x0E v with
      chip.snd.ch1.reload := reload (r[0x12].extractLsb' 0 2 ++ v) } ∧
    exec (.wrFF12 v) s = .next { (s.afterWrite 0xFF12 v).stored 0x12 v with
      chip.snd.ch1.reload := reload (v.extractLsb' 0 2 ++ r[0x0E]) } ∧
    exec (.wrFF0F v) s = .next { (s.afterWrite 0xFF0F v).stored 0x0F v with
      chip.snd.ch2.reload := reload (r[0x10].extractLsb' 0 2 ++ v) } ∧
    exec (.wrFF10 v) s = .next { (s.afterWrite 0xFF10 v).stored 0x10 v with
      chip.snd.ch2.reload := reload (v.extractLsb' 0 2 ++ r[0x0F]) }

/-- R516, R517: the control registers are stored, the renderer selection is scheduled (bit 5), the standard follows bit 6
of 0x07 and the sink is told of a toggle, and the test and freeze bits set the refused mark (the model's reading of
refuse, log 12; that the write stands in the trace before the call to the sink is the model's, log 18). -/
def Obligations.ModeWrites : Prop :=
  ∀ (s : State) (v : Byte), let d := s.chip.cfg.delayMode; let p := s.chip.seq.phase
    exec (.wrFF06 v) s = .next { ((s.afterWrite 0xFF06 v).stored 0x06 v).scheduled p 5 d with
      chip.refused := s.chip.refused || v.getLsbD 7 } ∧
    exec (.wrFF07 v) s = .next { ((s.afterWrite 0xFF07 v).stored 0x07 v).scheduled p 5 d with
      chip.seq.ntsc := v.getLsbD 6
      chip.trace := if v.getLsbD 6 = s.chip.seq.ntsc then .cpuWrite 0xFF07 v :: s.chip.trace
        else .ntsc (v.getLsbD 6) :: .cpuWrite 0xFF07 v :: s.chip.trace
      chip.refused := s.chip.refused || v.getLsbD 5 }

/-- R536, R537, R540, R541, R508: a write of a delayed register waits in its pending value, replacing an earlier one, and
schedules its micro-operation with the delay of the parameter. -/
def Obligations.DelayedRegisterWrites : Prop :=
  ∀ (s : State) (v : Byte), let p := s.chip.seq.phase; let g := s.chip.cfg
    exec (.wrFF1A v) s = .next { (s.afterWrite 0xFF1A v).scheduled p 1 g.delayCpos with chip.rf.pend1A := some v } ∧
    exec (.wrFF1B v) s = .next { (s.afterWrite 0xFF1B v).scheduled p 1 g.delayCpos with chip.rf.pend1B := some v } ∧
    exec (.wrFF1E v) s = .next { (s.afterWrite 0xFF1E v).scheduled p 0 g.delayHpos with chip.rf.pend1E := some v } ∧
    exec (.wrFF1F v) s = .next { (s.afterWrite 0xFF1F v).scheduled p 2 g.delayVsub with chip.rf.pend1F := some v }

/-- R711: a write of the character-position reload leaves the register until the mask that its delay names is dispatched,
and is then applied (where no line operation of the same dispatch writes the register as well). -/
def Obligations.DelayedWritesAreAppliedAtTheirDispatch : Prop :=
  ∀ (s t : State) (v : Byte), exec (.wrFF1B v) s = .next t →
    t.chip.rf.regs[0x1B] = s.chip.rf.regs[0x1B] ∧
    (let q := s.chip.cfg.delayCpos.target s.chip.seq.phase
     s.chip.cfg.valid = true → bit (s.chip.evMask q) 3 = false → bit (s.chip.evMask q) 4 = false →
       (dispatch q t.chip).rf.regs[0x1B] = v ∧ (dispatch q t.chip).rf.pend1B = none) ∧
    (let q := (s.chip.cfg.delayCpos.target s.chip.seq.phase).other
     s.chip.evMask q = 0 → (dispatch q t.chip).rf.regs[0x1B] = s.chip.rf.regs[0x1B] ∧
       (dispatch q t.chip).rf.pend1B = some v)

/-! ## Bank switching and memory -/

/-- R590, R591, R592: the latches; the data byte does not matter and no memory is written; R593: an access to the external
I/O range is handed to the external handler: by default it is the memory access to its address; another handler answers a
read with a byte, with no driven bus or with memory, and takes a written byte or leaves it to memory, and each of its
answers is a free value (the spec's own addresses and default handler, log 23; the handlers, log 4). -/
def Obligations.BankLatchesAndIoRange : Prop :=
  ∀ (s : State) (v lo : Byte) (x : BitVec 4), let c := s.chip
    exec (.wrFF3E v) s = .next { s.afterWrite 0xFF3E v with chip.lat.cpuRomOn := true } ∧
    exec (.wrFF3F v) s = .next { s.afterWrite 0xFF3F v with chip.lat.cpuRomOn := false } ∧
    exec (.wrFDDx x v) s = .next { s.afterWrite (0xFDD0#16 + x.setWidth 16) v with
      chip.lat.romBankLo := x.extractLsb' 0 2, chip.lat.romBankHi := x.extractLsb' 2 2 } ∧
    (∀ p ∈ [(Instr.ioRdFD lo, 0xFD#8 ++ lo), (Instr.ioRdFE lo, 0xFE#8 ++ lo)],
      ∃ t, exec (.memRd p.2) s = .next t ∧ exec p.1 s = .next (
        match c.cfg.ioReadLaw with
        | none => t
        | some k =>
          match Config.ioRead k c.draws p.2 with
          | .byte b => { s.afterRead p.2 b with chip.draws := c.draws + 1 }
          | .openBus => { s.afterRead p.2 c.lat.busValue with chip.draws := c.draws + 1 }
          | .memory => { t with chip.draws := c.draws + 1 })) ∧
    ∀ p ∈ [(Instr.ioWrFD lo v, 0xFD#8 ++ lo), (Instr.ioWrFE lo v, 0xFE#8 ++ lo)],
      ∃ t, exec (.memWr p.2 v) s = .next t ∧ exec p.1 s = .next (
        match c.cfg.ioWriteLaw with
        | none => t
        | some k =>
          if Config.ioWrite k c.draws p.2 v then { s.afterWrite p.2 v with chip.draws := c.draws + 1 }
          else { t with chip.draws := c.draws + 1 })

/-- R594, R421: a CPU read of memory returns the byte of the location that CPU_READ resolves to, or the bus value on open
bus, and the bus then holds what was returned; the chip's own reads return and drive the byte of their location in the
same way. -/
def Obligations.MemoryReads : Prop :=
  ∀ (s : State) (a : Addr),
    (∀ (i : Nat) (off : BitVec 14) (v : Byte), resolve .cpuRead a s.chip = some (i, off) →
      s.chip.mem.read i off.toNat = some v → exec (.memRd a) s = .next (s.afterRead a v)) ∧
    (resolve .cpuRead a s.chip = none → exec (.memRd a) s = .next (s.afterRead a s.chip.lat.busValue)) ∧
    ∀ k ∈ [AccessKind.cpuRead, .chipDmaRead, .chipBitmapRead],
      (∀ (i : Nat) (off : BitVec 14) (v : Byte), resolve k a s.chip = some (i, off) →
        s.chip.mem.read i off.toNat = some v →
          memReadValue k a s.chip = v ∧ memReadEffect k a s.chip = { s.chip with lat.busValue := v }) ∧
      (resolve k a s.chip = none →
        memReadValue k a s.chip = s.chip.lat.busValue ∧ memReadEffect k a s.chip = s.chip)

/-- R230, R231, R421, R422: an access whose resolution is absent is open bus: a read, of the CPU or of the chip, returns the
last driven value and leaves it, and a write is ignored: it changes no byte, and the bus then holds what was driven (the
rule of the bus value is the spec's own decision, D22). -/
def Obligations.OpenBusAccesses : Prop :=
  ∀ (s : State) (a : Addr) (v : Byte),
    (∀ k : AccessKind, resolve k a s.chip = none →
      memReadValue k a s.chip = s.chip.lat.busValue ∧ memReadEffect k a s.chip = s.chip) ∧
    (resolve .cpuRead a s.chip = none → exec (.memRd a) s =
      .next { s with chip.trace := .cpuRead a s.chip.lat.busValue :: s.chip.trace }) ∧
    (resolve .cpuWrite a s.chip = none → exec (.memWr a v) s = .next (s.afterWrite a v))

/-- R595, R422: a CPU write of memory stores its byte where CPU_WRITE resolves to RAM, the bus holds it, and every other
byte of every slot reads as before; a write that resolves to no RAM is ignored. -/
def Obligations.MemoryWrites : Prop :=
  ∀ (s : State) (a : Addr) (v : Byte),
    ∃ m, exec (.memWr a v) s = .next { s.afterWrite a v with chip.mem := m } ∧
      m.segs = s.chip.mem.segs ∧ m.ramSizeKiB = s.chip.mem.ramSizeKiB ∧ m.fillPattern = s.chip.mem.fillPattern ∧
      ∀ (k : Nat) (off : BitVec 14), m.read k off.toNat =
        if resolve .cpuWrite a s.chip = some (k, off) ∧ s.chip.mem.isRam k = true then some v
        else s.chip.mem.read k off.toNat

/-- R420, R211, R212, R213, R220: which segment an access reaches. The key's fields; each bit of it at its place; the slot of
an address; the entry of a map given as data. Under the default map: RAM, counted down from the highest index and wrapping
with the RAM size, unless the access sees ROM; then the upper half of the address space shows the selected ROM banks. Before
a RAM configuration everything is open bus (R1203). R244: under the default map, once RAM is configured, a CPU write always
reaches RAM (the default map, ranges and layout are the spec's own, log 23). -/
def Obligations.AccessesResolveByTheMap : Prop :=
  ∀ (s : State) (a : Addr),
    let c := s.chip
    let g := s.chip.cfg
    let here := fun i : Nat => if (c.mem.seg i).isSome then some (i, a.extractLsb' 0 14) else none
    (∀ k : AccessKind, memKey k c = c.lat.expBank ++ (match k with | .cpuRead | .cpuWrite => 0#1 | _ => 1#1) ++
      BitVec.ofBool (match k with
        | .cpuRead => c.lat.cpuRomOn
        | .chipBitmapRead => c.rf.regs[0x12].getLsbD 2
        | _ => false) ++ c.lat.romBankHi ++ c.lat.romBankLo) ∧
    (g.valid = true → ∀ (key : BitVec 12) (i place : Nat), g.keyLayout[i]? = some place →
      (placeKey g.keyLayout 0 key).getLsbD place = key.getLsbD i) ∧
    (g.valid = true → ∀ (sl : Nat) (r : Addr × Addr), g.slotRanges[sl]? = some r → r.1 ≤ a → a ≤ r.2 → slot g a = sl) ∧
    (c.mem.ramSizeKiB = none → ∀ k : AccessKind, resolve k a c = none) ∧
    (∀ (size : Nat) (t : MemoryMap) (m : SizeMap), c.mem.ramSizeKiB = some size → g.memoryMap = some t →
      t.sizes.find? (fun x => x.sizeKiB == size) = some m → ∀ k : AccessKind,
        let entry := m.entries.lookup ((placeKey g.keyLayout 0 (memKey k c)).toNat, slot g a)
        (∀ i, entry = some i → resolve k a c = here i) ∧ (entry = none → resolve k a c = none)) ∧
    (∀ size : Nat, c.mem.ramSizeKiB = some size → g.memoryMap = none → g.slotRanges = defaultSlotRanges →
      let ram := here (255 - (4 * c.lat.expBank.toNat + a.toNat / 16384) % (size / 16))
      let rom := if a.toNat < 0x8000 then ram
        else if a.toNat < 0xC000 then here (2 * c.lat.romBankLo.toNat)
        else if 0xFC00 ≤ a.toNat ∧ a.toNat < 0xFD00 then here 1
        else here (2 * c.lat.romBankHi.toNat + 1)
      resolve .cpuWrite a c = ram ∧ resolve .chipDmaRead a c = ram ∧
      resolve .cpuRead a c = (if c.lat.cpuRomOn then rom else ram) ∧
      resolve .chipBitmapRead a c = (if c.rf.regs[0x12].getLsbD 2 then rom else ram)) ∧
    (LaidOut s = true → g.memoryMap = none → c.mem.ramSizeKiB ≠ none →
      ∃ k, resolve .cpuWrite a c = some (k, a.extractLsb' 0 14) ∧ c.mem.isRam k = true)

/-- R250, R253: with RAM visible to reads, a read of an address whose writes reach RAM returns the value the most recent
write to it left, whatever the memory map. -/
def Obligations.ReadsReturnTheLastWrite : Prop :=
  ∀ (s t : State) (a : Addr) (v : Byte) (i : Nat) (off : BitVec 14), s.chip.lat.cpuRomOn = false →
    resolve .cpuWrite a s.chip = some (i, off) → s.chip.mem.isRam i = true →
    exec (.memWr a v) s = .next t → exec (.memRd a) t = .next (t.afterRead a v)

/-! ## Micro-operations -/

/-- R720, R700, R330: a dispatch runs the micro-operations of the bits that were set, in the order of the parameter
(P_EVENT_ORDER; its default, bit 0 first, is stated with the state at reset, log 3), on its mask emptied first; under the
default micro-operations, none of which schedules, its mask is empty afterwards and the other as it was (R712). The
micro-operation of a bit in the current phase is the effect of its EVENT row. -/
def Obligations.DispatchRunsAndClearsTheMask : Prop :=
  (∀ (p : Phase) (c : Chip),
    dispatch p c = c.cfg.eventOrder.foldl (fun d b => if bit (c.evMask p) b then microOp p b d else d)
      (match p with | .even => { c with rf.evEven := 0 } | .odd => { c with rf.evOdd := 0 }) ∧
    (c.cfg.incLineLaw = none → c.cfg.vsubLaw = none →
      (dispatch p c).evMask p = 0 ∧ (dispatch p c).evMask p.other = c.evMask p.other)) ∧
  ∀ s : State, ∀ p ∈ [(Instr.evLoadHpos, 0), (.evLoadCposReload, 1), (.evLoadVsub, 2), (.evIncVideoLine, 3),
      (.evUpdateVsub, 4), (.evSelectRenderer, 5), (.evStopDma, 6), (.evReserved7, 7), (.evReserved8, 8), (.evReserved9, 9),
      (.evReserved10, 10), (.evReserved11, 11), (.evReserved12, 12), (.evReserved13, 13), (.evReserved14, 14),
      (.evReserved15, 15), (.evReserved16, 16), (.evReserved17, 17), (.evReserved18, 18), (.evReserved19, 19),
      (.evReserved20, 20), (.evReserved21, 21), (.evReserved22, 22), (.evReserved23, 23), (.evReserved24, 24),
      (.evReserved25, 25), (.evReserved26, 26), (.evReserved27, 27), (.evReserved28, 28), (.evReserved29, 29),
      (.evReserved30, 30), (.evReserved31, 31)],
    exec p.1 s = .next { s with chip := microOp s.chip.seq.phase p.2 s.chip }

/-- R740, R747: the pending horizontal position moves the column to the one P_HPOS_WRITE maps it to in the current phase (its
default is stated with the state at reset); a column that does not exist sets the refused mark instead; either way the value
is stored (log 12, log 23). -/
def Obligations.HorizontalPositionLoads : Prop :=
  ∀ s : State,
    (s.chip.rf.pend1E = none → exec .evLoadHpos s = .next s) ∧
    ∀ v : Byte, s.chip.rf.pend1E = some v →
      let g := s.chip.cfg
      let col := (match s.chip.seq.phase with | .even => g.hposWriteEven | .odd => g.hposWriteOdd).getD v.toNat 0
      (∀ h : col < 114, exec .evLoadHpos s =
        .next { s.stored 0x1E v with chip.rf.pend1E := none, chip.seq.column := ⟨col, h⟩ }) ∧
      (114 ≤ col → exec .evLoadHpos s =
        .next { s.stored 0x1E v with chip.rf.pend1E := none, chip.refused := true })

/-- R741, R742: the pending character-position reload and sub-address are applied (the spec's own content, log 23). -/
def Obligations.PendingValuesLoad : Prop :=
  (∀ (s : State), s.chip.rf.pend1A = none → s.chip.rf.pend1B = none → exec .evLoadCposReload s = .next s) ∧
  (∀ (s : State) (v : Byte), s.chip.rf.pend1A = some v → s.chip.rf.pend1B = none →
    exec .evLoadCposReload s = .next { s.stored 0x1A v with chip.rf.pend1A := none }) ∧
  (∀ (s : State) (w : Byte), s.chip.rf.pend1A = none → s.chip.rf.pend1B = some w →
    exec .evLoadCposReload s = .next { s.stored 0x1B w with chip.rf.pend1B := none }) ∧
  (∀ (s : State) (v w : Byte), s.chip.rf.pend1A = some v → s.chip.rf.pend1B = some w →
    exec .evLoadCposReload s =
      .next { (s.stored 0x1A v).stored 0x1B w with chip.rf.pend1A := none, chip.rf.pend1B := none }) ∧
  (∀ s : State, s.chip.rf.pend1F = none → exec .evLoadVsub s = .next s) ∧
  (∀ (s : State) (v : Byte), s.chip.rf.pend1F = some v → exec .evLoadVsub s =
    .next { s.stored 0x1F v with
      chip.rf.pend1F := none, chip.seq.flashCnt := v.extractLsb' 3 4, chip.seq.charSub := v.extractLsb' 0 3 })

/-- R743: the line advances and wraps, the vertical window opens and closes, a frame starts, the raster compares (the
spec's own content, log 23); another P_INC_LINE gives the line, whether the raster status is set, the reload
registers and a state change (log 4). -/
def Obligations.VideoLineIncrements : Prop :=
  ∀ s : State,
    let q := s.chip.seq
    let r := s.chip.rf.regs
    let lines := if q.ntsc then s.chip.cfg.linesNtsc else s.chip.cfg.linesPal
    let line : BitVec 9 := if q.videoLine.toNat + 1 = lines ∨ q.videoLine = 511 then 0 else q.videoLine + 1
    let rsel := r[0x06].getLsbD 3
    let winV := if line = (if rsel then 204 else 200) then false
      else if line = (if rsel then 4 else 8) then r[0x06].getLsbD 4 else q.winV
    let s1 := { s with chip.seq.videoLine := line, chip.seq.winV := winV }
    let s2 := if line = 0 then
        { (s1.stored 0x1A (r[0x1A] &&& 0xFC)).stored 0x1B 0 with chip.seq.charSub := 7, chip.seq.charPos := 0 }
      else s1
    (s.chip.cfg.incLineLaw = none → exec .evIncVideoLine s = .next
      (if line = r[0x0A].extractLsb' 0 1 ++ r[0x0B] then { s2 with chip.irq.stat := s.chip.irq.stat ||| 0x02 } else s2)) ∧
    ∀ k, s.chip.cfg.incLineLaw = some k →
      let x := Config.incLine k s.chip.elements
      let stat := if x.raster then s.chip.irq.stat ||| 0x02 else s.chip.irq.stat
      exec .evIncVideoLine s =
        .next (((s.changed x.row.rest x.line stat).stored 0x1A x.row.reloadHi).stored 0x1B x.row.reloadLo)

/-- R744: the sub-address counts the lines of a character row inside the window; after a row's last line the reload value
becomes the character position, but not at the window's first line (the spec's own content, log 23); another P_VSUB_UPDATE
gives the reload registers and a state change, and leaves the line (R181, log 4). -/
def Obligations.SubAddressUpdates : Prop :=
  ∀ s : State,
    let q := s.chip.seq
    let r := s.chip.rf.regs
    let vstart : BitVec 9 := if r[0x06].getLsbD 3 then 4 else 8
    (s.chip.cfg.vsubLaw = none →
      (q.winV = false → exec .evUpdateVsub s = .next s) ∧
      (q.winV = true → q.charSub ≠ 7 → exec .evUpdateVsub s = .next { s with chip.seq.charSub := q.charSub + 1 }) ∧
      (q.winV = true → q.charSub = 7 → q.videoLine = vstart →
        exec .evUpdateVsub s = .next { s with chip.seq.charSub := 0 }) ∧
      (q.winV = true → q.charSub = 7 → q.videoLine ≠ vstart → exec .evUpdateVsub s = .next
        { (s.stored 0x1A (r[0x1A].extractLsb' 2 6 ++ q.charPos.extractLsb' 8 2)).stored 0x1B (q.charPos.extractLsb' 0 8) with
          chip.seq.charSub := 0 })) ∧
    ∀ k, s.chip.cfg.vsubLaw = some k →
      let x := Config.vsubUpdate k s.chip.elements
      exec .evUpdateVsub s =
        .next (((s.changed x.rest q.videoLine s.chip.irq.stat).stored 0x1A x.reloadHi).stored 0x1B x.reloadLo)

/-- R745, R746, R340: the renderer is chosen from the mode bits as they are now; the CPU is released from a DMA. -/
def Obligations.RendererSelectionAndDmaStop : Prop :=
  ∀ s : State,
    let r := s.chip.rf.regs
    let chosen : Renderer :=
      if r[0x06].getLsbD 6 then (if r[0x06].getLsbD 5 || r[0x07].getLsbD 4 then .invalid else .ecmText)
      else if r[0x06].getLsbD 5 then (if r[0x07].getLsbD 4 then .mcBmp else .hiresBmp)
      else (if r[0x07].getLsbD 4 then .mcText else .text)
    exec .evSelectRenderer s = .next { s with chip.seq.renderer := chosen } ∧
    exec .evStopDma s = .next { s with
      chip.seq.busMode := .cpuRun
      chip.trace := if s.chip.seq.busMode = .chipDma then .setIsCPURunning true :: s.chip.trace else s.chip.trace }

/-- R331, R748: a reserved event has no effect; R312: a reserved host selector sets the refused mark and changes nothing
else (log 12). -/
def Obligations.ReservedOperations : Prop :=
  (∀ s : State, ∀ i ∈ [Instr.evReserved7, .evReserved8, .evReserved9, .evReserved10, .evReserved11, .evReserved12,
      .evReserved13, .evReserved14, .evReserved15, .evReserved16, .evReserved17, .evReserved18, .evReserved19,
      .evReserved20, .evReserved21, .evReserved22, .evReserved23, .evReserved24, .evReserved25, .evReserved26,
      .evReserved27, .evReserved28, .evReserved29, .evReserved30, .evReserved31], exec i s = .next s) ∧
  (∀ s : State, ∀ i ∈ [Instr.hostReservedB, .hostReservedC, .hostReservedD, .hostReservedE, .hostReservedF],
    exec i s = .next { s with chip.refused := true })

/-! ## Timers and interrupts -/

/-- R840, R841: a running timer counts down; at 0 timer 1 reloads from its latch, timers 2 and 3 run on from 0xFFFF, and
their status bits 3, 4 and 6 are set; R1112: the line is the OR of the enabled status bits, and interruptRequest is called
only when its level changes (the spec's own choice, log 23). -/
def Obligations.TimersAndTheInterruptLine : Prop :=
  ∀ c : Chip, let t := c.tmr; let line := decide (c.irq.stat &&& c.rf.regs[0x0A] &&& 0x5E ≠ 0)
    (t.run1 = false → updateTimer1 c = c) ∧
    (t.run1 = true → t.tmr1 ≠ 0 → updateTimer1 c = { c with tmr.tmr1 := t.tmr1 - 1 }) ∧
    (t.run1 = true → t.tmr1 = 0 → updateTimer1 c = { c with tmr.tmr1 := t.latch1, irq.stat := c.irq.stat ||| 0x08 }) ∧
    (t.run2 = false → updateTimer2 c = c) ∧
    (t.run2 = true → t.tmr2 ≠ 0 → updateTimer2 c = { c with tmr.tmr2 := t.tmr2 - 1 }) ∧
    (t.run2 = true → t.tmr2 = 0 → updateTimer2 c = { c with tmr.tmr2 := 0xFFFF, irq.stat := c.irq.stat ||| 0x10 }) ∧
    (t.run3 = false → updateTimer3 c = c) ∧
    (t.run3 = true → t.tmr3 ≠ 0 → updateTimer3 c = { c with tmr.tmr3 := t.tmr3 - 1 }) ∧
    (t.run3 = true → t.tmr3 = 0 → updateTimer3 c = { c with tmr.tmr3 := 0xFFFF, irq.stat := c.irq.stat ||| 0x40 }) ∧
    c.interruptCheck = (if line = c.irq.line then c
      else { c with irq.line := line, trace := .interruptRequest line :: c.trace })

/-! ## Video -/

/-- R920, R922, R913, R915, R916: the two text renderers with one colour a pixel, invoked with the shift register as it is
(the spec's own pixel functions, log 23); another P_PIXEL gives its own colours (log 4). -/
def Obligations.TextRenderers : Prop :=
  ∀ s : State,
    let sr := s.chip.vid.sr
    let r := s.chip.rf.regs
    let flash := s.chip.cfg.flashOn.getLsbD s.chip.seq.flashCnt.toNat
    let lit := fun j : Nat => sr.bitmap.getLsbD (7 - j) && !(sr.attr.getLsbD 7 && flash)
    let cur := sr.flags.getLsbD 0 && flash
    let text := fun j => if Bool.xor (Bool.xor (lit j) (sr.flags.getLsbD 1)) cur then sr.attr &&& 0x7F else r[0x15] &&& 0x7F
    let back := if sr.char.getLsbD 7 then (if sr.char.getLsbD 6 then r[0x18] else r[0x17])
      else (if sr.char.getLsbD 6 then r[0x16] else r[0x15])
    let ecm := fun j => if Bool.xor (lit j) cur then sr.attr &&& 0x7F else back &&& 0x7F
    (s.chip.cfg.pixelLaw = none →
      exec .renderText s = .next (s.renderedMode 0 text) ∧ exec .renderEcmText s = .next (s.renderedMode 0 ecm)) ∧
    ∀ k, s.chip.cfg.pixelLaw = some k →
      exec .renderText s = .next (s.renderedMode 0 (s.pixelsOf k (.mode .text))) ∧
      exec .renderEcmText s = .next (s.renderedMode 0 (s.pixelsOf k (.mode .ecmText)))

/-- R921, R923, R924, R925, R915, R916: multicolour text and the two bitmap renderers (the spec's own pixel functions,
log 23); another P_PIXEL gives its own colours (log 4). -/
def Obligations.BitmapAndMulticolourRenderers : Prop :=
  ∀ s : State,
    let sr := s.chip.vid.sr
    let r := s.chip.rf.regs
    let one := 0#1 ++ sr.attr.extractLsb' 4 3 ++ sr.char.extractLsb' 0 4
    let zero := 0#1 ++ sr.attr.extractLsb' 0 3 ++ sr.char.extractLsb' 4 4
    let hires := fun (on off : Byte) (j : Nat) => if sr.bitmap.getLsbD (7 - j) then on else off
    let pair := fun (c00 c01 c10 c11 : Byte) (j : Nat) =>
      if sr.bitmap.getLsbD (7 - 2 * (j / 2)) then (if sr.bitmap.getLsbD (6 - 2 * (j / 2)) then c11 else c10)
      else (if sr.bitmap.getLsbD (6 - 2 * (j / 2)) then c01 else c00)
    let mc := if sr.attr.getLsbD 3
      then pair (r[0x15] &&& 0x7F) (r[0x16] &&& 0x7F) (r[0x17] &&& 0x7F) (sr.attr &&& 0x77)
      else hires (sr.attr &&& 0x77) (r[0x15] &&& 0x7F)
    let bmp := hires one zero
    let mcb := pair (r[0x15] &&& 0x7F) zero one (r[0x16] &&& 0x7F)
    (s.chip.cfg.pixelLaw = none →
      exec .renderMcText s = .next (s.renderedMode 0 mc) ∧ exec .renderHiresBmp s = .next (s.renderedMode 0 bmp) ∧
      exec .renderMcBmp s = .next (s.renderedMode 0 mcb)) ∧
    ∀ k, s.chip.cfg.pixelLaw = some k →
      exec .renderMcText s = .next (s.renderedMode 0 (s.pixelsOf k (.mode .mcText))) ∧
      exec .renderHiresBmp s = .next (s.renderedMode 0 (s.pixelsOf k (.mode .hiresBmp))) ∧
      exec .renderMcBmp s = .next (s.renderedMode 0 (s.pixelsOf k (.mode .mcBmp)))

/-- R926, R927, R928: the INVALID modes take four free colours with bit 7 clear (log 8); blank is 0, border is the border
colour, whatever the other bits of their keys; another P_PIXEL gives its own colours for each of them (log 4). -/
def Obligations.InvalidBlankAndBorderRenderers : Prop :=
  ∀ s : State,
    let free := fun j : Nat => Config.invalidColour (s.chip.draws + j) &&& 0x7F
    let edge := s.chip.rf.regs[0x19] &&& 0x7F
    (∀ i ∈ [Instr.renderInvalid101, .renderInvalid110, .renderInvalid111],
      (s.chip.cfg.pixelLaw = none → exec i s = .next (s.renderedMode 4 free)) ∧
      ∀ k, s.chip.cfg.pixelLaw = some k → exec i s = .next (s.renderedMode 4 (s.pixelsOf k (.mode .invalid)))) ∧
    (∀ (border : Bool) (mode : BitVec 3),
      (s.chip.cfg.pixelLaw = none → exec (.renderBlank border mode) s = .next (s.rendered false 0 0 0 0 0)) ∧
      ∀ k, s.chip.cfg.pixelLaw = some k → let px := s.pixelsOf k .blank
        exec (.renderBlank border mode) s = .next (s.rendered false 0 (px 0) (px 1) (px 2) (px 3))) ∧
    ∀ mode : BitVec 3,
      (s.chip.cfg.pixelLaw = none → exec (.renderBorder mode) s = .next (s.rendered true 0 edge edge edge edge)) ∧
      ∀ k, s.chip.cfg.pixelLaw = some k → let px := s.pixelsOf k .border
        exec (.renderBorder mode) s = .next (s.rendered true 0 (px 0) (px 1) (px 2) (px 3))

/-- R930, R1231: the override check: blank, then border, then the selected renderer, which it does not change. The colours
are a function of `sr`, `regs`, `flashCnt` and `P_REM`; the renderer reads the flags as loaded, but by `regs` where RVSOFF or
the cursor position has changed since the load (R1231; the form of it is the model's choice, log 27). -/
def Obligations.OverrideCheck : Prop :=
  ∀ (p : Phase) (c : Chip),
    let r := c.rf.regs
    let shown := fun (sel : RenderSel) (p : Phase) (c : Chip) =>
      emitGroup sel (pixelRem p c) (sel.group (pixelRem p c) { c with vid.sr.flags := c.flagsRead }) c
    let sel := if c.seq.hBlank || c.seq.vBlank then RenderSel.blank
      else if c.seq.winH && c.seq.winV then .mode c.seq.renderer else .border
    ((c.seq.hBlank = true ∨ c.seq.vBlank = true) → renderStep p c = shown .blank p c) ∧
    (c.seq.hBlank = false → c.seq.vBlank = false → (c.seq.winH = false ∨ c.seq.winV = false) →
      renderStep p c = shown .border p c) ∧
    (c.seq.hBlank = false → c.seq.vBlank = false → c.seq.winH = true → c.seq.winV = true →
      renderStep p c = shown (.mode c.seq.renderer) p c) ∧
    (r[0x07].getLsbD 7 = c.vid.sr.loaded.rvsOff → r[0x0C].extractLsb' 0 2 ++ r[0x0D] = c.vid.sr.loaded.cursor →
      renderStep p c = renderWith sel p c) ∧
    (∀ (d : Chip) (any : RenderSel) (rem : Nat), d.vid.sr = c.vid.sr → d.rf.regs = r → d.seq.flashCnt = c.seq.flashCnt →
      d.cfg = c.cfg → d.draws = c.draws → any.invoke rem d = any.invoke rem c) ∧
    (renderStep p c).seq = c.seq

/-- R960, R952: a render appends one whole record of 2 to 5 bytes; a flush hands 451 to 455 bytes of whole records to the
sink and empties the buffer. -/
def Obligations.FlushesHoldWholeRecords : Prop :=
  ∀ (s : State) (p : Phase), Good s = true →
    let c := renderStep p s.chip
    (c.trace = s.chip.trace ∧ s.chip.outPos + 2 ≤ c.outPos ∧ c.outPos ≤ s.chip.outPos + 5 ∧ c.outPos ≤ 450 ∧
      wholeRecords s.chip.cfg.flagsLayout.solid c.vid.outBuf = true) ∨
    (∃ buf, c.trace = .video buf buf.length :: s.chip.trace ∧ 451 ≤ buf.length ∧ buf.length ≤ 455 ∧
      wholeRecords s.chip.cfg.flagsLayout.solid buf = true ∧ c.outPos = 0)

/-- R910, R911: the shift register takes the fetched character and the counters advance, while a character remains on the
line (the spec's own pipeline and default flags, log 23; another P_SR_FLAGS gives its own, log 4). R1231: whatever the
registers hold after the load, the flags the render step gives its renderer are those of a load under them (the model's
form, log 27). -/
def Obligations.ShiftRegisterAdvance : Prop :=
  ∀ c : Chip,
    (c.seq.charCol = 40 → loadShiftReg c = c) ∧
    ∀ h : c.seq.charCol.val < 40,
      let ch := c.vid.charBuf[c.seq.charCol.val]
      let r := c.rf.regs
      loadShiftReg c = { c with
        vid.sr := ⟨c.vid.attrCur[c.seq.charCol.val], ch, c.vid.fetched,
          match c.cfg.srFlagsLaw with
          | none => (if c.seq.charPos = r[0x0C].extractLsb' 0 2 ++ r[0x0D] then 1 else 0) +
              (if r[0x07].getLsbD 7 = false ∧ ch.getLsbD 7 = true then 2 else 0)
          | some k => Config.srFlags k c.elements,
          ⟨r[0x07].getLsbD 7, r[0x0C].extractLsb' 0 2 ++ r[0x0D], c.seq.charPos⟩⟩
        seq.charPos := c.seq.charPos + 1
        seq.charCol := ⟨c.seq.charCol.val + 1, by omega⟩ } ∧
      ∀ after : Vector Byte 32, c.cfg.srFlagsLaw = none →
        { loadShiftReg c with rf.regs := after }.flagsRead = (loadShiftReg { c with rf.regs := after }).vid.sr.flags

/-! ## Sound -/

/-- R1020, R1021, R1022, R1030, R1001, R1010: a tick steps both channels unless DAC mode holds them, channel 2's underflow
clocks the noise register (a left shift, the parity of its tapped bits coming in), the level is the scaled mix of the
enables, the noise bit and the two outputs, and the sample of the two most recent levels is played; DAC forcing sets both
channels. The tables are parameters; the forms of the noise register and of the forced state are the model's (log 3). -/
def Obligations.SoundSteps : Prop :=
  ∀ s : State,
    let g := s.chip.cfg
    let control := s.chip.rf.regs[0x11]
    let next := fun ch : Channel =>
      if ch.cnt = 0 then { ch with cnt := ch.reload, latch := !ch.latch, decay := 0, silent := false }
      else { ch with
        cnt := ch.cnt - 1
        decay := if ch.decay < g.decayTicks then ch.decay + 1 else ch.decay
        silent := ch.silent || (if ch.decay < g.decayTicks then ch.decay + 1 = g.decayTicks else ch.decay = g.decayTicks) }
    let held := control.getLsbD 7
    let ch1 := if held then s.chip.snd.ch1 else next s.chip.snd.ch1
    let ch2 := if held then s.chip.snd.ch2 else next s.chip.snd.ch2
    let x := s.chip.snd.lfsr
    let shifted := (2 * x + ((List.range g.lfsrWidth).countP fun i => x.testBit i && g.lfsrTaps.testBit i) % 2)
      % 2 ^ g.lfsrWidth
    let lfsr := if held = false ∧ s.chip.snd.ch2.cnt = 0 then shifted else x
    let index := 8 * (control.toNat / 16) + (if lfsr.testBit 0 then 4 else 0) +
      (if ch2.latch && !ch2.silent then 2 else 0) + (if ch1.latch && !ch1.silent then 1 else 0)
    let level := (g.scale.getD (g.mix.getD index 0) []).getD (g.vol.getD (control.toNat % 16) 0) 0
    let force := fun (d : DacState) (ch : Channel) =>
      { ch with cnt := d.cnt.getD ch.reload, latch := d.latch, decay := d.decay, silent := d.silent }
    exec .stepSoundTick s = .next { s with
      chip.snd := ⟨ch1, ch2, lfsr, level⟩
      chip.trace := .sample (g.dist.getD (s.chip.snd.prevLevel + level) 0) :: s.chip.trace } ∧
    exec .stepDacForce s = .next { s with
      chip.snd.ch1 := force g.dac1 s.chip.snd.ch1, chip.snd.ch2 := force g.dac2 s.chip.snd.ch2 }

/-- R1030, R1034: in a good state the level lies in 0..150, so that the sample is an entry of the distortion table. -/
def Obligations.SamplesAreTableEntries : Prop :=
  ∀ s : State, Good s = true → ∃ (t : State) (l : Nat) (v : BitVec 16), exec .stepSoundTick s = .next t ∧ l ≤ 150 ∧
    t.chip.snd.prevLevel = l ∧ s.chip.cfg.dist[s.chip.snd.prevLevel + l]? = some v ∧
    t.chip.trace = .sample v :: s.chip.trace

/-! ## Memory configuration -/

/-- R400, R401, R402, R403, R404: a configureRAM that needs no new segment, or whose allocation succeeds, leaves exactly the
RAMSET of the rounded size: by default the S/16 highest slots, else the memory map's. Kept segments keep their bytes, new
ones hold the fill pattern, ROM outside the RAMSET (all of it, under the default map; that ROM within it becomes RAM is the
model's choice, log 26) and everything else is untouched. One that needs a new segment draws P_ALLOC_OK, the host side's
next value or else a free one (log 9), and where that is false raises ConfigurationError and changes nothing else. -/
def Obligations.ConfigureRamCompletes : Prop :=
  ∀ (s : State) (size : Int) (fp : Nat), Good s = true →
    let g := s.chip.cfg
    ∃ (S : Nat) (m : Memory),
      S ∈ [16, 32, 64, 256, 1024] ∧ (size < 16 → S = 16) ∧ (16 ≤ size → (S : Int) ≤ size) ∧
      (∀ r : Nat, r ∈ [16, 32, 64, 256, 1024] → (r : Int) ≤ size → r ≤ S) ∧
      (let done := fun t : State => { t with chip.mem := m, host.result := .success }
       exec (.hostConfigureRAM size fp) s = .next (
        if ∃ k ∈ ramSet g S, s.chip.mem.isRam k = false then
          match s.host.allocDraws with
          | ok :: rest =>
            let t := { s with host.allocDraws := rest }
            if ok then done t else { t with host.result := .error .configurationError }
          | [] =>
            let t := { s with chip.draws := s.chip.draws + 1 }
            if Config.allocOk s.chip.draws then done t else { t with host.result := .error .configurationError }
        else done s)) ∧
      m.ramSizeKiB = some S ∧ m.fillPattern = some fp ∧
      (g.memoryMap = none → ∀ k, k ∈ ramSet g S ↔ 256 - S / 16 ≤ k ∧ k < 256) ∧
      (∀ (t : MemoryMap) (x : SizeMap), g.memoryMap = some t → t.sizes.find? (fun x => x.sizeKiB == S) = some x →
        ramSet g S = x.ramSet) ∧
      (∀ k, m.isRam k = true ↔ k ∈ ramSet g S) ∧
      (∀ k, m.isRom k = true ↔ s.chip.mem.isRom k = true ∧ k ∉ ramSet g S) ∧
      (∀ k off, off < 16384 → (m.isRom k = true ∨ (s.chip.mem.isRam k = true ∧ m.isRam k = true)) →
        m.read k off = s.chip.mem.read k off) ∧
      (∀ k off, off < 16384 → s.chip.mem.isRam k = false → m.isRam k = true →
        m.read k off = some (Config.ramFill S fp k off))

/-- R404, R1100: a configureRAM that must allocate and cannot raises ConfigurationError and changes nothing else (the draw
it consumed is the model's own field, log 9). -/
def Obligations.ConfigureRamFailureChangesNothing : Prop :=
  ∀ (s : State) (size : Int) (fp : Nat) (rest : List Bool), s.host.allocDraws = false :: rest →
    (∃ k ∈ ramSet s.chip.cfg (roundRam size), s.chip.mem.isRam k = false) →
    exec (.hostConfigureRAM size fp) s =
      .next { s with host.allocDraws := rest, host.result := .error .configurationError }

/-- R405: the same configureRAM again changes nothing. -/
def Obligations.ConfigureRamIsIdempotent : Prop :=
  ∀ (s t : State) (size : Int) (fp : Nat), Good s = true →
    exec (.hostConfigureRAM size fp) s = .next t → t.host.result = .success →
      exec (.hostConfigureRAM size fp) t = .next t

/-- R410, R412, R413, R414, R415: NULL deletes the segment; otherwise the slot is a ROM segment, the written offsets wrap
within it and each holds the last byte written to it, the others keep theirs where the segment was ROM and are draws where
it is new, and no other slot, nor the RAM size and the fill pattern, changes. The slot of a bank is the bank itself, unless
the memory map says otherwise. -/
def Obligations.LoadRomCompletes : Prop :=
  ∀ (s : State) (bank offset length : Int), Good s = true →
    let b := (bank % 8).toNat
    let i := match s.chip.cfg.memoryMap with
      | none => b
      | some t => t.romSeg.getD b 0
    let place := fun j : Nat => ((offset % 16384).toNat + j) % 16384
    let rest := fun m : Memory => m.ramSizeKiB = s.chip.mem.ramSizeKiB ∧ m.fillPattern = s.chip.mem.fillPattern ∧
      ∀ k, k ≠ i → m.seg k = s.chip.mem.seg k ∧ ∀ off, off < 16384 → m.read k off = s.chip.mem.read k off
    (∃ m, exec (.hostLoadROM bank offset length none) s = .next { s with chip.mem := m, host.result := .nothing } ∧
      m.seg i = none ∧ rest m) ∧
    ∀ bytes : List Byte, let n := min length.toNat bytes.length
      ∃ m d, exec (.hostLoadROM bank offset length (some bytes)) s =
          .next { s with chip.mem := m, chip.draws := d, host.result := .nothing } ∧
        m.isRom i = true ∧
        (∀ (j : Nat) (h : j < bytes.length), j < n → n ≤ j + 16384 → m.read i (place j) = some bytes[j]) ∧
        (∀ off, off < 16384 → (∀ j < n, off ≠ place j) →
          m.read i off = if s.chip.mem.isRom i then s.chip.mem.read i off
            else some (Config.romInit s.chip.draws i off)) ∧
        rest m

/-- R420, R423, R430, R852, R853, R851: the calls that look something up, the host-direct register access, and the
registration of a callback. -/
def Obligations.HostCallResults : Prop :=
  ∀ s : State,
    (∀ (k : AccessKind) (a : Addr), resolve k a s.chip = none →
      exec (.hostResolve k a) s = .next { s with host.result := .openBus }) ∧
    (∀ (k : AccessKind) (a : Addr) (i : Nat) (off : BitVec 14), resolve k a s.chip = some (i, off) →
      exec (.hostResolve k a) s = .next { s with host.result := .loc i off }) ∧
    (∀ sl : Int,
      let i := (sl % 256).toNat
      let kind := if s.chip.mem.isRam i then SegKind.ram else if s.chip.mem.isRom i then SegKind.rom else SegKind.none
      exec (.hostGetSegmentKind sl) s = .next { s with host.result := .kind kind }) ∧
    (∀ cb ud : Nat, exec (.hostRegisterCallback cb ud) s =
      .next { s with chip.callbacks := s.chip.callbacks ++ [(cb, ud)], host.result := .nothing }) ∧
    (∀ (o : BitVec 5) (v : Byte), exec (.hostWriteRegister o v) s =
      .next { s with chip := writeRule .odd o.toFin v s.chip, host.result := .nothing }) ∧
    (∀ o : BitVec 5, o ≠ 8 → exec (.hostReadRegister o) s =
      .next { s with host.result := .byte (readValue o.toFin s.chip) }) ∧
    (exec (.hostReadRegister 8) s =
      .next { s with chip.draws := s.chip.draws + 1, host.result := .byte (readValue 8 s.chip) })

/-! ## Reset and snapshots -/

/-- R1200, R1202, R1201: the value of every element after a reset that draws `d`, warm or with RAM kept: memory,
configuration, callbacks and the refused mark stay; the sink is told of a changed standard and the CPU is reset. `d` is the
host side's next record, or else a free value (log 2); that all bits of the interrupt status are drawn is the model's
reading (log 25), and the model's own `sr.loaded`, which is not in R1202's table, takes the drawn registers and charPos
(DESIGN CHOICE, log 27). -/
def Obligations.ResetSetsEveryElement : Prop :=
  ∀ (s : State) (cold : Bool), (cold = false ∨ s.chip.cfg.coldRam = .keep) →
    (∀ d rest, s.host.resetDraws = d :: rest →
      exec (.hostReset cold) s = .next (s.afterResetWith cold d rest s.chip.mem)) ∧
    (s.host.resetDraws = [] → exec (.hostReset cold) s =
      .next { s.afterResetWith cold (Config.resetDraw s.chip.draws) [] s.chip.mem with chip.draws := s.chip.draws + 1 })

/-- R1201, R1200, R1202: a cold reset that refills sets every element as any reset does, leaves every RAM byte at the fill
pattern of the current configuration and every ROM byte as it was, and changes no segment's kind. Without a supplied draw
the draws are free values (log 2); that all bits of the interrupt status are drawn is the model's reading (log 25), and the
model's own `sr.loaded`, which is not in R1202's table, takes the drawn registers and charPos (DESIGN CHOICE, log 27).
It asks for a map whose RAMSET meets no ROM slot (LaidOut, log 26). -/
def Obligations.ColdResetRefillsRam : Prop :=
  ∀ s : State, Good s = true → LaidOut s = true → s.chip.cfg.coldRam = .refill →
    ∃ m : Memory,
      (∀ d rest, s.host.resetDraws = d :: rest →
        exec (.hostReset true) s = .next (s.afterResetWith true d rest m)) ∧
      (s.host.resetDraws = [] → exec (.hostReset true) s =
        .next { s.afterResetWith true (Config.resetDraw s.chip.draws) [] m with chip.draws := s.chip.draws + 1 }) ∧
      m.ramSizeKiB = s.chip.mem.ramSizeKiB ∧ m.fillPattern = s.chip.mem.fillPattern ∧
      (∀ k, m.isRam k = s.chip.mem.isRam k ∧ m.isRom k = s.chip.mem.isRom k) ∧
      (∀ k off, off < 16384 → s.chip.mem.isRom k = true → m.read k off = s.chip.mem.read k off) ∧
      ∀ k off size fp, off < 16384 → s.chip.mem.isRam k = true → s.chip.mem.ramSizeKiB = some size →
        s.chip.mem.fillPattern = some fp → m.read k off = some (Config.ramFill size fp k off)

/-- R1210, R1211: saveState changes no state and hands the host a snapshot (log 17); loadState sets every saved element
from it and keeps ROM, callbacks and the refused mark; RAM is the snapshot's, byte for byte. The model's own `sr.loaded`
is saved and loaded with the video state (log 27). -/
def Obligations.SnapshotsSaveAndLoad : Prop :=
  (∀ s : State, exec .hostSaveState s = .next { s with
    host.snapshots := s.host.snapshots ++ [snapshotOf s], host.result := .snapshot s.host.snapshots.length }) ∧
  ∀ (s : State) (n : Nat) (k : Snapshot), Good s = true → LaidOut s = true → s.host.snapshots[n]? = some k →
    ∃ m, exec (.hostLoadState n) s = .next { s with
        chip := { s.chip with
          mem := m, lat := k.lat, rf := k.rf, seq := k.seq, tmr := k.tmr, irq := k.irq, vid := k.vid, snd := k.snd
          kbdLatch := k.kbdLatch, refused := s.chip.refused || k.refused }
        tickBudget := k.tickBudget
        host.result := .nothing } ∧
      m.ramSizeKiB = k.ram.ramSizeKiB ∧ m.fillPattern = k.ram.fillPattern ∧
      (∀ i, m.isRam i = k.ram.isRam i) ∧ (∀ i, m.isRom i = s.chip.mem.isRom i) ∧
      (∀ i off, off < 16384 → k.ram.isRam i = true → m.read i off = k.ram.read i off) ∧
      (∀ i off, off < 16384 → s.chip.mem.isRom i = true → m.read i off = s.chip.mem.read i off)

/-- R1212: loading the saved state into another chip with the same ROM, callbacks, parameters, CPU script and draws, whose
refused mark is not set, makes the two chips one but for what each has already shown (the trace), so that whatever runs
next runs alike. -/
def Obligations.SnapshotRoundTrip : Prop :=
  ∀ (s t u : State) (n : Nat), Good s = true → LaidOut s = true → Good t = true → LaidOut t = true →
    t.host.snapshots[n]? = some (snapshotOf s) →
    (∀ k, t.chip.mem.isRom k = s.chip.mem.isRom k) →
    (∀ k, s.chip.mem.isRom k = true → t.chip.mem.seg k = s.chip.mem.seg k) →
    (∀ a, s.chip.mem.isRom (a / 16384) = true → assocGet t.chip.mem.cells a = assocGet s.chip.mem.cells a) →
    t.chip.callbacks = s.chip.callbacks → t.chip.cfg = s.chip.cfg → t.chip.inp = s.chip.inp →
    t.chip.draws = s.chip.draws → (t.chip.refused = true → s.chip.refused = true) →
    exec (.hostLoadState n) t = .next u →
      u.chip = { s.chip with trace := t.chip.trace } ∧ u.tickBudget = s.tickBudget
end

