-- ==== Sys2Proof/Laws/Assoc.lean ====
section
/-! SUPPORT. Laws.Assoc: the association lists that hold segments and bytes: reading after a change, the rising form, and
that two rising lists that read alike are equal. -/

namespace Sys2Proof.Laws

open Sys2Proof.Machine

variable {α : Type}

@[simp] theorem assocGet_nil (a : Nat) : assocGet ([] : List (Nat × α)) a = none := rfl

theorem assocGet_cons (k : Nat) (v : α) (m : List (Nat × α)) (a : Nat) :
    assocGet ((k, v) :: m) a = if k = a then some v else assocGet m a := rfl

/-- A read after a write. -/
theorem assocGet_put (m : List (Nat × α)) (a : Nat) (v : α) (b : Nat) :
    assocGet (assocPut m a v) b = if a = b then some v else assocGet m b := by
  induction m with
  | nil => simp [assocPut, assocGet_cons]
  | cons e m ih =>
    obtain ⟨k, w⟩ := e
    simp only [assocPut]
    split
    · simp [assocGet_cons]
    · split
      · subst_vars; simp only [assocGet_cons]; split <;> rfl
      · simp only [assocGet_cons, ih]
        split <;> split <;> simp_all

theorem risingFrom_mono (m : List (Nat × α)) {lo lo' : Nat} (h : lo ≤ lo') (hm : risingFrom lo' m = true) :
    risingFrom lo m = true := by
  cases m with
  | nil => rfl
  | cons e m => simp only [risingFrom, Bool.and_eq_true, decide_eq_true_eq] at *; exact ⟨by omega, hm.2⟩

theorem risingFrom_put (m : List (Nat × α)) (a : Nat) (v : α) (lo : Nat) (h : lo ≤ a) (hm : risingFrom lo m = true) :
    risingFrom lo (assocPut m a v) = true := by
  induction m generalizing lo with
  | nil => simp [assocPut, risingFrom, h]
  | cons e m ih =>
    obtain ⟨k, w⟩ := e
    simp only [risingFrom, Bool.and_eq_true, decide_eq_true_eq] at hm
    simp only [assocPut]
    split
    · simp only [risingFrom, Bool.and_eq_true, decide_eq_true_eq]; exact ⟨h, by omega, hm.2⟩
    · split
      · subst_vars; simp only [risingFrom, Bool.and_eq_true, decide_eq_true_eq]; exact ⟨h, hm.2⟩
      · simp only [risingFrom, Bool.and_eq_true, decide_eq_true_eq]
        exact ⟨hm.1, ih _ (by omega) hm.2⟩

/-- A write keeps the keys strictly rising. -/
theorem rising_put {m : List (Nat × α)} (hm : rising m = true) (a : Nat) (v : α) : rising (assocPut m a v) = true :=
  risingFrom_put m a v 0 (by omega) hm

theorem risingFrom_filter (p : Nat × α → Bool) (m : List (Nat × α)) (lo : Nat) (hm : risingFrom lo m = true) :
    risingFrom lo (m.filter p) = true := by
  induction m generalizing lo with
  | nil => rfl
  | cons e m ih =>
    obtain ⟨k, w⟩ := e
    simp only [risingFrom, Bool.and_eq_true, decide_eq_true_eq] at hm
    simp only [List.filter_cons]
    split
    · simp only [risingFrom, Bool.and_eq_true, decide_eq_true_eq]; exact ⟨hm.1, ih _ hm.2⟩
    · exact ih _ (risingFrom_mono m (by omega) hm.2)

/-- Keeping some entries keeps the keys strictly rising. -/
theorem rising_keep {m : List (Nat × α)} (hm : rising m = true) (p : Nat → Bool) : rising (assocKeep p m) = true :=
  risingFrom_filter _ m 0 hm

/-- A read after keeping the keys that satisfy `p`. -/
theorem assocGet_keep (p : Nat → Bool) (m : List (Nat × α)) (a : Nat) :
    assocGet (assocKeep p m) a = if p a then assocGet m a else none := by
  induction m with
  | nil => simp [assocKeep]
  | cons e m ih =>
    obtain ⟨k, w⟩ := e
    simp only [assocKeep, List.filter_cons] at *
    by_cases h : k = a
    · subst h; by_cases hp : p k <;> simp_all [assocGet_cons]
    · by_cases hp : p k <;> simp_all [assocGet_cons]

theorem rising_join {m : List (Nat × α)} (hm : rising m = true) (m' : List (Nat × α)) :
    rising (assocJoin m m') = true := by
  induction m' generalizing m with
  | nil => exact hm
  | cons e m' ih => obtain ⟨k, v⟩ := e; exact ih (rising_put hm k v)

theorem assocGet_eq_none_of_risingFrom (m : List (Nat × α)) {lo a : Nat} (hm : risingFrom lo m = true) (h : a < lo) :
    assocGet m a = none := by
  induction m generalizing lo with
  | nil => rfl
  | cons e m ih =>
    obtain ⟨k, w⟩ := e
    simp only [risingFrom, Bool.and_eq_true, decide_eq_true_eq] at hm
    rw [assocGet_cons, if_neg (by omega), ih hm.2 (by omega)]

/-- A read after joining a rising list into another: the second list's entries come first. -/
theorem assocGet_join (m m' : List (Nat × α)) {lo : Nat} (hm' : risingFrom lo m' = true) (a : Nat) :
    assocGet (assocJoin m m') a = (assocGet m' a).or (assocGet m a) := by
  induction m' generalizing m lo with
  | nil => rfl
  | cons e m' ih =>
    obtain ⟨k, v⟩ := e
    simp only [risingFrom, Bool.and_eq_true, decide_eq_true_eq] at hm'
    simp only [assocJoin, ih (assocPut m k v) hm'.2, assocGet_put, assocGet_cons]
    by_cases h : k = a
    · subst h; simp [assocGet_eq_none_of_risingFrom m' hm'.2 (Nat.lt_succ_self k)]
    · simp [h]

theorem eq_of_assocGet_aux (m m' : List (Nat × α)) (lo lo' : Nat) (hm : risingFrom lo m = true)
    (hm' : risingFrom lo' m' = true) (h : ∀ a, assocGet m a = assocGet m' a) : m = m' := by
  induction m generalizing m' lo lo' with
  | nil =>
    cases m' with
    | nil => rfl
    | cons e m' => obtain ⟨k, v⟩ := e; have := h k; simp [assocGet_cons] at this
  | cons e m ih =>
    obtain ⟨k, v⟩ := e
    cases m' with
    | nil => have := h k; simp [assocGet_cons] at this
    | cons e' m' =>
      obtain ⟨k', v'⟩ := e'
      simp only [risingFrom, Bool.and_eq_true, decide_eq_true_eq] at hm hm'
      have hk : k = k' := by
        rcases Nat.lt_trichotomy k k' with hlt | heq | hgt
        · have := h k
          rw [assocGet_cons, if_pos rfl, assocGet_cons, if_neg (by omega),
            assocGet_eq_none_of_risingFrom m' hm'.2 (by omega)] at this
          cases this
        · exact heq
        · have := h k'
          rw [assocGet_cons, if_neg (by omega), assocGet_eq_none_of_risingFrom m hm.2 (by omega), assocGet_cons,
            if_pos rfl] at this
          cases this
      subst hk
      have hv := h k
      simp only [assocGet_cons, if_true, Option.some.injEq] at hv
      subst hv
      rw [ih m' _ _ hm.2 hm'.2 fun a => ?_]
      by_cases ha : k = a
      · subst ha
        rw [assocGet_eq_none_of_risingFrom m hm.2 (by omega), assocGet_eq_none_of_risingFrom m' hm'.2 (by omega)]
      · have := h a; simpa only [assocGet_cons, if_neg ha] using this

/-- Two strictly rising lists that read alike are equal. -/
theorem eq_of_assocGet {m m' : List (Nat × α)} (hm : rising m = true) (hm' : rising m' = true)
    (h : ∀ a, assocGet m a = assocGet m' a) : m = m' :=
  eq_of_assocGet_aux m m' 0 0 hm hm' h

/-- Every entry of a rising list is read at its key. -/
theorem assocGet_of_mem {m : List (Nat × α)} {lo : Nat} (hm : risingFrom lo m = true) {e : Nat × α} (he : e ∈ m) :
    assocGet m e.1 = some e.2 := by
  induction m generalizing lo with
  | nil => cases he
  | cons e' m ih =>
    obtain ⟨k, v⟩ := e'
    simp only [risingFrom, Bool.and_eq_true, decide_eq_true_eq] at hm
    rcases List.mem_cons.1 he with rfl | he
    · simp [assocGet_cons]
    · have hs := ih hm.2 he
      rw [assocGet_cons]
      split
      · rename_i hk
        rw [← hk, assocGet_eq_none_of_risingFrom m hm.2 (by omega)] at hs; cases hs
      · exact hs

/-- What is read is an entry. -/
theorem mem_of_assocGet {m : List (Nat × α)} {a : Nat} {v : α} (h : assocGet m a = some v) : (a, v) ∈ m := by
  induction m with
  | nil => cases h
  | cons e m ih =>
    obtain ⟨k, w⟩ := e
    rw [assocGet_cons] at h
    split at h
    · simp_all
    · exact List.mem_cons_of_mem _ (ih h)

/-- A property of all keys of a list is a property of the keys that read. -/
theorem all_key_iff {m : List (Nat × α)} (hm : rising m = true) (p : Nat → Bool) :
    (m.all fun e => p e.1) = true ↔ ∀ a v, assocGet m a = some v → p a = true := by
  rw [List.all_eq_true]
  refine ⟨fun h a v hv => h _ (mem_of_assocGet hv), fun h e he => h _ _ (assocGet_of_mem hm he)⟩

/-- A property of all entries of a list is a property of what reads. -/
theorem all_iff {m : List (Nat × α)} (hm : rising m = true) (p : Nat × α → Bool) :
    m.all p = true ↔ ∀ a v, assocGet m a = some v → p (a, v) = true := by
  rw [List.all_eq_true]
  refine ⟨fun h a v hv => h _ (mem_of_assocGet hv), fun h e he => h _ _ (assocGet_of_mem hm he)⟩

end Sys2Proof.Laws
end

