-- ==== Sys2Proof/Laws/Codec.lean ====
section
/-! SUPPORT. Laws.Codec: the operand bytes read back as written. -/

namespace Sys2Proof.Laws

@[simp] theorem take32_bytes32 (x : BitVec 32) (rest : List Byte) : take32 (bytes32 x ++ rest) = .ok (x, rest) := by
  simp only [bytes32, List.cons_append, List.nil_append, take32, Except.ok.injEq, Prod.mk.injEq, and_true]
  refine BitVec.eq_of_getLsbD_eq fun i hi => ?_
  simp only [BitVec.getLsbD_append, BitVec.getLsbD_extractLsb']
  split_ifs <;> rw [decide_eq_true (by omega), Bool.true_and] <;> congr 1 <;> omega

@[simp] theorem length_bytes32 (x : BitVec 32) : (bytes32 x).length = 4 := rfl

theorem toInt_ofInt32 {n : Int} (h : fitsInt n = true) : (BitVec.ofInt 32 n).toInt = n := by
  simp only [fitsInt, Bool.and_eq_true, decide_eq_true_eq] at h
  rw [BitVec.toInt_ofInt]
  exact Int.bmod_eq_of_le (by omega) (by omega)

/-- A signed operand that fits its bytes. -/
theorem takeInt_encodeInt {n : Int} (h : fitsInt n = true) (rest : List Byte) :
    takeInt (encodeInt n ++ rest) = .ok (n, rest) := by
  simp [takeInt, encodeInt, Except.map, toInt_ofInt32 h]

/-- An unsigned operand that fits its bytes. -/
theorem takeNat_encodeNat {n : Nat} (h : fitsNat n = true) (rest : List Byte) :
    takeNat (encodeNat n ++ rest) = .ok (n, rest) := by
  simp only [fitsNat, decide_eq_true_eq] at h
  simpa [takeNat, encodeNat, Except.map] using h

/-- A counted byte sequence. -/
theorem takeBytes_append (data rest : List Byte) : takeBytes data.length (data ++ rest) = .ok (data, rest) := by
  simp [takeBytes]

/-- The byte sequence of loadROM. -/
theorem takeRomBytes_encode {data : Option (List Byte)} (h : fitsNat ((data.getD []).length) = true)
    (rest : List Byte) : takeRomBytes (encodeRomBytes data ++ rest) = .ok (data, rest) := by
  rcases data with - | data
  · rfl
  · simp only [Option.getD_some] at h
    simp only [encodeRomBytes, List.cons_append, List.append_assoc, takeRomBytes, takeByte, bind, Except.bind,
      takeNat_encodeNat h, takeBytes_append]
    rfl

/-- An address is the append of its two bytes. -/
theorem addr_bytes (a : Addr) : a.extractLsb' 8 8 ++ a.extractLsb' 0 8 = a := by
  refine BitVec.eq_of_getLsbD_eq fun i hi => ?_
  simp only [BitVec.getLsbD_append, BitVec.getLsbD_extractLsb']
  split_ifs <;> rw [decide_eq_true (by omega), Bool.true_and] <;> congr 1 <;> omega

@[simp] theorem takeAddr_encodeAddr (a : Addr) (rest : List Byte) : takeAddr (encodeAddr a ++ rest) = .ok (a, rest) := by
  simp only [encodeAddr, List.cons_append, List.nil_append, takeAddr, addr_bytes]

@[simp] theorem kindOf_kindCode (k : AccessKind) : kindOf ((kindCode k).extractLsb' 0 2) = k := by cases k <;> rfl

/-- A field of an address, as arithmetic. -/
theorem addr_field_eq_iff (a : Addr) (lo len : Nat) (x : BitVec len) :
    a.extractLsb' lo len = x ↔ a.toNat / 2 ^ lo % 2 ^ len = x.toNat := by
  rw [← BitVec.toNat_inj, BitVec.extractLsb'_toNat, Nat.shiftRight_eq_div_pow]

/-- The register block, as a field (R301 (1), R500). -/
theorem block_iff (a : Addr) : a.extractLsb' 5 11 = 0x7F8#11 ↔ inRegisterBlock a = true := by
  have := a.isLt
  simp only [addr_field_eq_iff, BitVec.toNat_ofNat, inRegisterBlock, Bool.and_eq_true, decide_eq_true_eq]
  omega

/-- The external I/O range, as fields (R301 (4)). -/
theorem ioRange_iff (a : Addr) :
    a.extractLsb' 8 8 = 0xFD#8 ∨ a.extractLsb' 8 8 = 0xFE#8 ↔ inIoRange a = true := by
  have := a.isLt
  simp only [addr_field_eq_iff, BitVec.toNat_ofNat, inIoRange, Bool.and_eq_true, decide_eq_true_eq]
  omega

/-- The ROM-bank latch, as a field (R301 (3)). -/
theorem bankLatch_iff (a : Addr) : a.extractLsb' 4 12 = 0xFDD#12 ↔ 0xFDD0 ≤ a.toNat ∧ a.toNat ≤ 0xFDDF := by
  have := a.isLt
  simp only [addr_field_eq_iff, BitVec.toNat_ofNat]
  omega

/-- A BUS read word decodes as the read of its address. -/
theorem decodeBus_read (a : Addr) (rest : List Byte) :
    decode .bus ((busReadBytes a).bytes ++ rest) = .ok (decodeBusRead a, rest) := by
  simp only [busReadBytes, encodeAddr, List.cons_append, List.nil_append, decode, decodeBus, addr_bytes, if_true]

/-- A BUS write word decodes as the write of its address. -/
theorem decodeBus_write (a : Addr) (v : Byte) (rest : List Byte) :
    decode .bus ((busWriteBytes a v).bytes ++ rest) = .ok (decodeBusWrite a v, rest) := by
  have h : ¬(0#8 = 1#8) := by decide
  simp only [busWriteBytes, encodeAddr, List.cons_append, List.nil_append, decode, decodeBus, addr_bytes, if_true,
    if_neg h]

end Sys2Proof.Laws
end

