-- ==== Sys2Proof/Laws/Memory.lean ====
section
/-! SUPPORT. Laws.Memory: what each memory operation does, as reads, and that it keeps the canonical form. -/

namespace Sys2Proof.Laws

open Sys2Proof.Machine

/-! ## The canonical form, as reads -/

/-- The canonical form said by reads. -/
theorem wf_iff (m : Memory) : m.wf = true ↔
    rising m.segs = true ∧ rising m.cells = true ∧ (∀ i g, m.seg i = some g → i < Config.segSlots) ∧
      ∀ k v, assocGet m.cells k = some v → (m.seg (k / Config.segSize)).isSome = true := by
  simp only [Memory.wf, Bool.and_eq_true]
  constructor
  · rintro ⟨⟨⟨hs, hc⟩, hi⟩, hb⟩
    refine ⟨hs, hc, fun i g h => ?_, ?_⟩
    · simpa using (all_key_iff hs fun i => decide (i < Config.segSlots)).1 hi i g h
    · exact (all_key_iff hc fun k => (m.seg (k / Config.segSize)).isSome).1 hb
  · rintro ⟨hs, hc, hi, hb⟩
    refine ⟨⟨⟨hs, hc⟩, ?_⟩, ?_⟩
    · exact (all_key_iff hs fun i => decide (i < Config.segSlots)).2 fun i g h => by simpa using hi i g h
    · exact (all_key_iff hc fun k => (m.seg (k / Config.segSize)).isSome).2 hb

/-- Two storages in canonical form that read alike, with the same configuration, are equal. -/
theorem memory_ext {m m' : Memory} (hm : m.wf = true) (hm' : m'.wf = true) (hs : ∀ i, m.seg i = m'.seg i)
    (hc : ∀ k, assocGet m.cells k = assocGet m'.cells k) (hr : m.ramSizeKiB = m'.ramSizeKiB)
    (hf : m.fillPattern = m'.fillPattern) : m = m' := by
  obtain ⟨s1, c1, -, -⟩ := (wf_iff m).1 hm
  obtain ⟨s2, c2, -, -⟩ := (wf_iff m').1 hm'
  cases m; cases m'
  simp only [Memory.mk.injEq] at *
  exact ⟨eq_of_assocGet s1 s2 hs, eq_of_assocGet c1 c2 hc, hr, hf⟩

/-- An address of a slot's byte. -/
theorem cellAddr_div (i off : Nat) (h : off < Config.segSize) : cellAddr i off / Config.segSize = i := by
  simp only [cellAddr, Config.segSize] at *; omega

theorem cellAddr_inj {i j off off' : Nat} (h : off < Config.segSize) (h' : off' < Config.segSize) :
    cellAddr i off = cellAddr j off' ↔ i = j ∧ off = off' := by
  simp only [cellAddr, Config.segSize] at *; omega

@[simp] theorem segOffset_lt (a : Addr) : (segOffset a).toNat < Config.segSize := (segOffset a).isLt

/-- `isRam` and `isRom` say which kind of segment stands in a slot. -/
theorem isRam_eq (m : Memory) (i : Nat) : m.isRam i = true ↔ ∃ s f, m.seg i = some (.ram s f) := by
  simp only [Memory.isRam]
  rcases h : m.seg i with - | (d | ⟨s, f⟩) <;> simp [Segment.isRam]

theorem isRom_eq (m : Memory) (i : Nat) : m.isRom i = true ↔ ∃ d, m.seg i = some (.rom d) := by
  simp only [Memory.isRom]
  rcases h : m.seg i with - | (d | ⟨s, f⟩) <;> simp [Segment.isRam]

/-! ## A write of one byte -/

@[simp] theorem write_seg (m : Memory) (i off : Nat) (v : Byte) (j : Nat) : (m.write i off v).seg j = m.seg j := rfl
@[simp] theorem write_segs (m : Memory) (i off : Nat) (v : Byte) : (m.write i off v).segs = m.segs := rfl
@[simp] theorem write_size (m : Memory) (i off : Nat) (v : Byte) : (m.write i off v).ramSizeKiB = m.ramSizeKiB := rfl
@[simp] theorem write_fill (m : Memory) (i off : Nat) (v : Byte) : (m.write i off v).fillPattern = m.fillPattern := rfl

theorem write_cells (m : Memory) (i off : Nat) (v : Byte) (k : Nat) :
    assocGet (m.write i off v).cells k = if cellAddr i off = k then some v else assocGet m.cells k :=
  assocGet_put _ _ _ _

/-- Reading one byte after writing one. -/
theorem read_write (m : Memory) (i off : Nat) (v : Byte) (j off' : Nat) (h : off < Config.segSize)
    (h' : off' < Config.segSize) :
    (m.write i off v).read j off' = if i = j ∧ off = off' then (m.seg j).map fun _ => v else m.read j off' := by
  simp only [Memory.read, write_seg, write_cells, cellAddr_inj h h']
  split <;> simp

/-- A write into a present segment keeps the canonical form. -/
theorem wf_write {m : Memory} (hm : m.wf = true) (i off : Nat) (v : Byte) (h : off < Config.segSize)
    (hi : (m.seg i).isSome = true) : (m.write i off v).wf = true := by
  obtain ⟨hs, hc, hlt, hb⟩ := (wf_iff m).1 hm
  refine (wf_iff _).2 ⟨hs, rising_put hc _ _, hlt, fun k w hk => ?_⟩
  rw [write_cells] at hk
  split at hk
  · subst_vars; rw [cellAddr_div i off h]; exact hi
  · exact hb k w hk

/-! ## Forgetting bytes, dropping and creating segments -/

theorem keepCells_cells (p : Nat → Bool) (m : Memory) (k : Nat) :
    assocGet (m.keepCells p).cells k = if p (k / Config.segSize) then assocGet m.cells k else none :=
  assocGet_keep (fun a => p (a / Config.segSize)) m.cells k

theorem rising_keepCells {m : Memory} (h : rising m.cells = true) (p : Nat → Bool) :
    rising (m.keepCells p).cells = true := rising_keep h fun a => p (a / Config.segSize)

theorem drop_seg (m : Memory) (i j : Nat) : (m.drop i).seg j = if j = i then none else m.seg j := by
  simp only [Memory.drop, Memory.seg, assocGet_keep]
  by_cases h : j = i <;> simp [h]

theorem drop_cells (m : Memory) (i k : Nat) :
    assocGet (m.drop i).cells k = if k / Config.segSize = i then none else assocGet m.cells k := by
  have := keepCells_cells (fun j => j != i) m k
  simp only [Memory.drop, this]
  by_cases h : k / Config.segSize = i <;> simp [h]

theorem newRom_seg (m : Memory) (i d j : Nat) : (m.newRom i d).seg j = if i = j then some (.rom d) else m.seg j := by
  simp only [Memory.newRom, Memory.seg, assocGet_put]

theorem newRom_cells (m : Memory) (i d k : Nat) :
    assocGet (m.newRom i d).cells k = if k / Config.segSize = i then none else assocGet m.cells k := by
  have := keepCells_cells (fun j => j != i) m k
  simp only [Memory.newRom, this]
  by_cases h : k / Config.segSize = i <;> simp [h]

/-- Dropping a segment keeps the canonical form. -/
theorem wf_drop {m : Memory} (hm : m.wf = true) (i : Nat) : (m.drop i).wf = true := by
  obtain ⟨hs, hc, hlt, hb⟩ := (wf_iff m).1 hm
  refine (wf_iff _).2 ⟨rising_keep hs fun j => j != i, rising_keepCells hc fun j => j != i,
    fun j g h => ?_, fun k v h => ?_⟩
  · rw [drop_seg] at h; split at h
    · cases h
    · exact hlt j g h
  · rw [drop_cells] at h; split at h
    · cases h
    · rw [drop_seg, if_neg (by assumption)]; exact hb k v h

/-- Creating a ROM segment keeps the canonical form. -/
theorem wf_newRom {m : Memory} (hm : m.wf = true) (i d : Nat) (hi : i < Config.segSlots) : (m.newRom i d).wf = true := by
  obtain ⟨hs, hc, hlt, hb⟩ := (wf_iff m).1 hm
  refine (wf_iff _).2 ⟨rising_put hs _ _, rising_keepCells hc fun j => j != i, fun j g h => ?_,
    fun k v h => ?_⟩
  · rw [newRom_seg] at h; split at h
    · subst_vars; exact hi
    · exact hlt j g h
  · rw [newRom_cells] at h; split at h
    · cases h
    · rw [newRom_seg, if_neg (by omega)]; exact hb k v h

/-! ## loadROM -/

theorem bankIdx_lt (bank : Int) : bankIdx bank < 8 := by simp only [bankIdx]; omega

theorem valid_memoryMap {p : Params} (h : p.valid = true) {t : MemoryMap} (ht : p.memoryMap = some t) : t.ok = true := by
  simp only [Params.valid, Bool.and_eq_true] at h
  have := h.1.1.2
  rwa [ht] at this

/-- A ROM bank's slot is a slot of the SegmentTable. -/
theorem romSeg_lt {p : Params} (h : p.valid = true) {b : Nat} (hb : b < 8) : romSeg p b < Config.segSlots := by
  simp only [romSeg]
  split
  · exact Nat.lt_trans hb (by decide)
  · rename_i t ht
    have hok := valid_memoryMap h ht
    simp only [MemoryMap.ok, Bool.and_eq_true, decide_eq_true_eq, List.all_eq_true] at hok
    rw [List.getD_eq_getElem _ _ (by omega)]
    exact hok.1.1.2 _ (List.getElem_mem _)

/-- Writing ROM bytes changes the bytes of one slot only, and no segment. -/
theorem writeRomBytes_eq (i : Nat) (off : Nat) (bs : List Byte) (m : Memory) (h : off < Config.segSize) :
    (writeRomBytes i off bs m).segs = m.segs ∧ (writeRomBytes i off bs m).ramSizeKiB = m.ramSizeKiB ∧
      (writeRomBytes i off bs m).fillPattern = m.fillPattern ∧
      ∀ k, k / Config.segSize ≠ i → assocGet (writeRomBytes i off bs m).cells k = assocGet m.cells k := by
  induction bs generalizing off m with
  | nil => exact ⟨rfl, rfl, rfl, fun _ _ => rfl⟩
  | cons v bs ih =>
    obtain ⟨h1, h2, h3, h4⟩ := ih ((off + 1) % Config.segSize) (m.write i off v) (Nat.mod_lt _ (by decide))
    refine ⟨h1, h2, h3, fun k hk => (h4 k hk).trans ?_⟩
    rw [write_cells, if_neg]
    rintro rfl
    exact hk (cellAddr_div i off h)

theorem writeRomBytes_seg (i off : Nat) (bs : List Byte) (m : Memory) (h : off < Config.segSize) (j : Nat) :
    (writeRomBytes i off bs m).seg j = m.seg j := by
  simp only [Memory.seg, (writeRomBytes_eq i off bs m h).1]

theorem wf_writeRomBytes (i : Nat) (off : Nat) (bs : List Byte) {m : Memory} (hm : m.wf = true)
    (h : off < Config.segSize) (hi : (m.seg i).isSome = true) : (writeRomBytes i off bs m).wf = true := by
  induction bs generalizing off m with
  | nil => exact hm
  | cons v bs ih => exact ih _ (wf_write hm i off v h hi) (Nat.mod_lt _ (by decide)) (by simpa using hi)

theorem romOffset_lt (offset : Int) : (offset % (Config.segSize : Int)).toNat < Config.segSize := by
  simp only [Config.segSize]; omega

/-- loadROM changes the storage only (and the number of draws). -/
theorem loadRom_eq (bank offset length : Int) (bytes : Option (List Byte)) (c : Chip) :
    loadRom bank offset length bytes c =
      { c with mem := (loadRom bank offset length bytes c).mem, draws := (loadRom bank offset length bytes c).draws } := by
  simp only [loadRom]
  split
  · rfl
  · split <;> rfl

/-- Slots other than the one loadROM names keep their segment and their bytes. -/
theorem loadRom_other (bank offset length : Int) (bytes : Option (List Byte)) (c : Chip) (k : Nat)
    (hk : k ≠ romSeg c.cfg (bankIdx bank)) :
    (loadRom bank offset length bytes c).mem.seg k = c.mem.seg k ∧
      ∀ a, a / Config.segSize = k → assocGet (loadRom bank offset length bytes c).mem.cells a = assocGet c.mem.cells a := by
  simp only [loadRom]
  split
  · exact ⟨by simp [drop_seg, hk], fun a ha => by simp [drop_cells, ha, hk]⟩
  · split
    · refine ⟨?_, fun a ha => ?_⟩
      · exact writeRomBytes_seg _ _ _ _ (romOffset_lt offset) k
      · exact (writeRomBytes_eq _ _ _ _ (romOffset_lt offset)).2.2.2 a (by omega)
    · refine ⟨?_, fun a ha => ?_⟩
      · refine (writeRomBytes_seg _ _ _ _ (romOffset_lt offset) k).trans ?_
        rw [newRom_seg, if_neg (Ne.symm hk)]
      · refine ((writeRomBytes_eq _ _ _ _ (romOffset_lt offset)).2.2.2 a (by omega)).trans ?_
        rw [newRom_cells, if_neg (by omega)]

/-- The slot loadROM names becomes ABSENT or a ROM segment. -/
theorem loadRom_slot (bank offset length : Int) (bytes : Option (List Byte)) (c : Chip) :
    (bytes = none → (loadRom bank offset length bytes c).mem.seg (romSeg c.cfg (bankIdx bank)) = none) ∧
      (bytes ≠ none → (loadRom bank offset length bytes c).mem.isRom (romSeg c.cfg (bankIdx bank)) = true) := by
  simp only [loadRom]
  split
  · exact ⟨fun _ => by simp [drop_seg], fun h => absurd rfl h⟩
  · refine ⟨fun h => (nomatch h), fun _ => ?_⟩
    split
    · rename_i h
      rw [isRom_eq] at h ⊢
      obtain ⟨d, hd⟩ := h
      exact ⟨d, (writeRomBytes_seg _ _ _ _ (romOffset_lt offset) _).trans hd⟩
    · rw [isRom_eq]
      exact ⟨c.draws, (writeRomBytes_seg _ _ _ _ (romOffset_lt offset) _).trans (by simp [newRom_seg])⟩

theorem loadRom_config (bank offset length : Int) (bytes : Option (List Byte)) (c : Chip) :
    (loadRom bank offset length bytes c).mem.ramSizeKiB = c.mem.ramSizeKiB ∧
      (loadRom bank offset length bytes c).mem.fillPattern = c.mem.fillPattern := by
  simp only [loadRom]
  split
  · exact ⟨rfl, rfl⟩
  · split
    · exact ⟨(writeRomBytes_eq _ _ _ _ (romOffset_lt offset)).2.1, (writeRomBytes_eq _ _ _ _ (romOffset_lt offset)).2.2.1⟩
    · exact ⟨(writeRomBytes_eq _ _ _ _ (romOffset_lt offset)).2.1, (writeRomBytes_eq _ _ _ _ (romOffset_lt offset)).2.2.1⟩

/-- loadROM keeps the canonical form. -/
theorem wf_loadRom (bank offset length : Int) (bytes : Option (List Byte)) (c : Chip) (hv : c.cfg.valid = true)
    (h : c.mem.wf = true) : (loadRom bank offset length bytes c).mem.wf = true := by
  have hb := romSeg_lt hv (bankIdx_lt bank)
  simp only [loadRom]
  split
  · exact wf_drop h _
  · split
    · rename_i hr
      obtain ⟨d, hd⟩ := (isRom_eq _ _).1 hr
      exact wf_writeRomBytes _ _ _ h (romOffset_lt offset) (by rw [hd]; rfl)
    · exact wf_writeRomBytes _ _ _ (wf_newRom h _ _ hb) (romOffset_lt offset) (by simp [newRom_seg])

/-! ## configureRAM -/

theorem roundRam_mem (s : Int) : roundRam s ∈ Config.ramSizes := by
  simp only [roundRam, Config.ramSizes]; split_ifs <;> simp

theorem ramSetBase_add {size : Nat} (h : size ∈ Config.ramSizes) : ramSetBase size + size / 16 = 256 := by
  simp only [Config.ramSizes, List.mem_cons, List.not_mem_nil, or_false] at h
  rcases h with rfl | rfl | rfl | rfl | rfl <;> decide

/-- The members of the default RAMSET. -/
theorem mem_defaultRamSet {p : Params} (hp : p.memoryMap = none) {size : Nat} (h : size ∈ Config.ramSizes) (i : Nat) :
    i ∈ ramSet p size ↔ ramSetBase size ≤ i ∧ i < 256 := by
  have := ramSetBase_add h
  simp only [ramSet, hp, List.mem_range'_1]
  omega

/-- RAMSET is written in rising order and names slots of the SegmentTable. -/
theorem ramSet_ok {p : Params} (hv : p.valid = true) {size : Nat} (h : size ∈ Config.ramSizes) :
    (ramSet p size).Pairwise (· < ·) ∧ ∀ i ∈ ramSet p size, i < Config.segSlots := by
  simp only [ramSet]
  split
  · refine ⟨List.pairwise_lt_range', fun i hi => ?_⟩
    have := ramSetBase_add h
    rw [List.mem_range'_1] at hi
    simp only [Config.segSlots]; omega
  · rename_i t ht
    have hok := valid_memoryMap hv ht
    rcases hs : t.ofSize size with - | m
    · exact ⟨.nil, fun i hi => by simp at hi⟩
    · have hm : m.ok = true := by
        simp only [MemoryMap.ok, Bool.and_eq_true, List.all_eq_true] at hok
        exact hok.2 m (List.mem_of_find?_eq_some hs)
      simp only [SizeMap.ok, Bool.and_eq_true, decide_eq_true_eq, List.all_eq_true] at hm
      exact ⟨hm.1.1, hm.1.2⟩

theorem assocGet_map_self {α : Type} (l : List Nat) (f : Nat → α) (a : Nat) :
    assocGet (l.map fun i => (i, f i)) a = if a ∈ l then some (f a) else none := by
  induction l with
  | nil => rfl
  | cons b l ih =>
    simp only [List.map_cons, assocGet_cons, ih, List.mem_cons]
    by_cases h : b = a
    · subst h; simp
    · simp [h, Ne.symm h]

theorem risingFrom_map_self {α : Type} (lo : Nat) (l : List Nat) (f : Nat → α) (h : l.Pairwise (· < ·))
    (hlo : ∀ i ∈ l, lo ≤ i) : risingFrom lo (l.map fun i => (i, f i)) = true := by
  induction l generalizing lo with
  | nil => rfl
  | cons b l ih =>
    rw [List.pairwise_cons] at h
    simp only [List.map_cons, risingFrom, Bool.and_eq_true, decide_eq_true_eq]
    exact ⟨hlo b List.mem_cons_self, ih (b + 1) h.2 fun i hi => h.1 i hi⟩

/-- The segment of a slot after configureRAM (R400). -/
theorem configured_seg {p : Params} (hv : p.valid = true) {size : Nat} (h : size ∈ Config.ramSizes) (fp : Nat) (m : Memory)
    (i : Nat) :
    (configuredMem p size fp m).seg i =
      if i ∈ ramSet p size then some (ramSegment size fp (m.seg i)) else if m.isRom i then m.seg i else none := by
  have hr : rising ((ramSet p size).map fun i => (i, ramSegment size fp (m.seg i))) = true :=
    risingFrom_map_self 0 _ _ (ramSet_ok hv h).1 fun _ _ => Nat.zero_le _
  simp only [configuredMem, Memory.seg] at hr ⊢
  rw [assocGet_join _ _ hr, assocGet_map_self, assocGet_keep]
  by_cases hi : i ∈ ramSet p size
  · simp [hi]
  · simp [hi]

theorem ramSegment_isRam (size fp : Nat) (g : Option Segment) : (ramSegment size fp g).isRam = true := by
  rcases g with - | (d | ⟨s, f⟩) <;> rfl

/-- The bytes of a slot after configureRAM: kept where the segment is. -/
theorem configured_cells (p : Params) (size fp : Nat) (m : Memory) (k : Nat) :
    assocGet (configuredMem p size fp m).cells k =
      if (if (ramSet p size).contains (k / Config.segSize) then m.isRam (k / Config.segSize)
        else m.isRom (k / Config.segSize))
      then assocGet m.cells k else none := by
  simp only [configuredMem]
  exact keepCells_cells (fun i => if (ramSet p size).contains i then m.isRam i else m.isRom i) m k

/-- configureRAM keeps the canonical form. -/
theorem wf_configured {p : Params} (hv : p.valid = true) {size : Nat} (h : size ∈ Config.ramSizes) (fp : Nat) {m : Memory}
    (hm : m.wf = true) : (configuredMem p size fp m).wf = true := by
  obtain ⟨hs, hc, hlt, hb⟩ := (wf_iff m).1 hm
  refine (wf_iff _).2 ⟨rising_join (rising_keep hs _) _,
    rising_keepCells hc fun i => if (ramSet p size).contains i then m.isRam i else m.isRom i,
    fun i g hg => ?_, fun k v hk => ?_⟩
  · rw [configured_seg hv h] at hg
    split at hg
    · exact (ramSet_ok hv h).2 i (by assumption)
    · split at hg
      · exact hlt i g hg
      · cases hg
  · rw [configured_cells] at hk
    rw [configured_seg hv h]
    by_cases hi : k / Config.segSize ∈ ramSet p size
    · rw [if_pos hi]; rfl
    · have hc' : (ramSet p size).contains (k / Config.segSize) = false := by simpa using hi
      rw [hc'] at hk
      rw [if_neg hi]
      by_cases hp : m.isRom (k / Config.segSize) = true
      · obtain ⟨d, hd⟩ := (isRom_eq _ _).1 hp
        rw [if_pos hp, hd]; rfl
      · simp only [Bool.false_eq_true, if_false] at hk
        rw [if_neg hp] at hk; cases hk

/-! ## A CPU write -/

/-- A CPU write stores its byte where CPU_WRITE resolves to RAM, and nowhere else. -/
theorem memWrite_cases (a : Addr) (v : Byte) (c : Chip) :
    (∃ i off, resolve .cpuWrite a c = some (i, off) ∧ c.mem.isRam i = true ∧
      memWrite a v c = { c with mem := c.mem.write i off.toNat v, lat.busValue := v }) ∨
    ((∀ i off, resolve .cpuWrite a c = some (i, off) → c.mem.isRam i = false) ∧
      memWrite a v c = { c with lat.busValue := v }) := by
  simp only [memWrite]
  split
  · rename_i h; exact .inr ⟨by simp [h], rfl⟩
  · rename_i i off h
    by_cases hr : c.mem.isRam i
    · exact .inl ⟨i, off, h, hr, by rw [if_pos hr]; rfl⟩
    · refine .inr ⟨fun i' off' h' => ?_, by rw [if_neg hr]; rfl⟩
      rw [h] at h'; cases h'; simpa using hr

/-! ## Refilling -/

theorem assocGet_map {α β : Type} (f : α → β) (m : List (Nat × α)) (a : Nat) :
    assocGet (m.map fun e => (e.1, f e.2)) a = (assocGet m a).map f := by
  induction m with
  | nil => rfl
  | cons e m ih => obtain ⟨k, v⟩ := e; simp only [List.map_cons, assocGet_cons, ih]; split <;> rfl

theorem risingFrom_map {α β : Type} (f : α → β) (m : List (Nat × α)) (lo : Nat) :
    risingFrom lo (m.map fun e => (e.1, f e.2)) = risingFrom lo m := by
  induction m generalizing lo with
  | nil => rfl
  | cons e m ih => obtain ⟨k, v⟩ := e; simp only [List.map_cons, risingFrom, ih]

/-- What a cold reset with REFILL does to the storage: RAM segments are filled again, their written bytes forgotten; ROM
is kept. -/
theorem refill_seg (m : Memory) (i : Nat) :
    m.refill.seg i = match m.ramSizeKiB, m.fillPattern with
      | some size, some fp => (m.seg i).map (Segment.refilled size fp)
      | _, _ => m.seg i := by
  simp only [Memory.refill]
  rcases m.ramSizeKiB with - | size
  · rfl
  · rcases m.fillPattern with - | fp
    · rfl
    · exact assocGet_map (Segment.refilled size fp) m.segs i

theorem refill_config (m : Memory) : m.refill.ramSizeKiB = m.ramSizeKiB ∧ m.refill.fillPattern = m.fillPattern := by
  simp only [Memory.refill]; split <;> exact ⟨rfl, rfl⟩

theorem refill_isRam (m : Memory) (i : Nat) : m.refill.isRam i = m.isRam i := by
  simp only [Memory.isRam, refill_seg]
  split
  · rcases m.seg i with - | (d | ⟨s, f⟩) <;> rfl
  · rfl

theorem refill_rom (m : Memory) (i : Nat) (h : m.isRom i = true) :
    m.refill.seg i = m.seg i ∧
      ∀ k, k / Config.segSize = i → assocGet m.refill.cells k = assocGet m.cells k := by
  obtain ⟨d, hd⟩ := (isRom_eq _ _).1 h
  refine ⟨?_, fun k hk => ?_⟩
  · rw [refill_seg]
    split
    · rw [hd]; rfl
    · rfl
  · simp only [Memory.refill]
    split
    · refine (keepCells_cells (fun i => !m.isRam i) m k).trans ?_
      rw [hk, if_pos]
      simp [Memory.isRam, hd, Segment.isRam]
    · rfl

theorem wf_refill {m : Memory} (hm : m.wf = true) : m.refill.wf = true := by
  obtain ⟨hs, hc, hlt, hb⟩ := (wf_iff m).1 hm
  refine (wf_iff _).2 ⟨?_, ?_, fun i g hg => ?_, fun k v hk => ?_⟩
  · simp only [Memory.refill]
    split
    · rename_i size fp _ _
      exact (risingFrom_map (Segment.refilled size fp) _ 0).trans hs
    · exact hs
  · simp only [Memory.refill]
    split
    · exact rising_keepCells hc fun i => !m.isRam i
    · exact hc
  · rw [refill_seg] at hg
    split at hg
    · rw [Option.map_eq_some_iff] at hg; obtain ⟨g', hg', -⟩ := hg; exact hlt i g' hg'
    · exact hlt i g hg
  · have hk' : assocGet m.cells k = some v := by
      simp only [Memory.refill] at hk
      split at hk
      · rw [keepCells_cells] at hk; split at hk
        · exact hk
        · cases hk
      · exact hk
    have := hb k v hk'
    rw [refill_seg]
    split
    · rw [Option.isSome_map]; exact this
    · exact this

/-! ## Snapshots -/

theorem ramPart_seg (m : Memory) (i : Nat) : m.ramPart.seg i = if m.isRam i then m.seg i else none :=
  assocGet_keep _ _ _

theorem ramPart_cells (m : Memory) (k : Nat) :
    assocGet m.ramPart.cells k = if m.isRam (k / Config.segSize) then assocGet m.cells k else none :=
  keepCells_cells m.isRam m k

theorem wf_ramPart {m : Memory} (hm : m.wf = true) : m.ramPart.wf = true := by
  obtain ⟨hs, hc, hlt, hb⟩ := (wf_iff m).1 hm
  refine (wf_iff _).2 ⟨rising_keep hs _, rising_keepCells hc _, fun i g hg => ?_, fun k v hk => ?_⟩
  · rw [ramPart_seg] at hg; split at hg
    · exact hlt i g hg
    · cases hg
  · rw [ramPart_cells] at hk; split at hk
    · rw [ramPart_seg, if_pos (by assumption)]; exact hb k v hk
    · cases hk

theorem withRam_seg (m ram : Memory) (hr : rising ram.segs = true) (i : Nat) :
    (m.withRam ram).seg i = (ram.seg i).or (if m.isRom i then m.seg i else none) := by
  simp only [Memory.withRam, Memory.seg, assocGet_join _ _ hr, assocGet_keep]
  rcases h : assocGet ram.segs i with - | g <;> simp

theorem withRam_cells (m ram : Memory) (hr : rising ram.cells = true) (k : Nat) :
    assocGet (m.withRam ram).cells k = (assocGet ram.cells k).or
      (if m.isRom (k / Config.segSize) && (ram.seg (k / Config.segSize)).isNone then assocGet m.cells k else none) := by
  simp only [Memory.withRam, assocGet_join _ _ hr]
  rw [keepCells_cells (fun i => m.isRom i && (ram.seg i).isNone)]

/-- loadState keeps the canonical form. -/
theorem wf_withRam {m ram : Memory} (hm : m.wf = true) (hr : ram.wf = true) : (m.withRam ram).wf = true := by
  obtain ⟨hs, hc, hlt, hb⟩ := (wf_iff m).1 hm
  obtain ⟨rs, rc, rlt, rb⟩ := (wf_iff ram).1 hr
  refine (wf_iff _).2 ⟨rising_join (rising_keep hs _) _, rising_join (rising_keepCells hc _) _, fun i g hg => ?_,
    fun k v hk => ?_⟩
  · rw [withRam_seg m ram rs] at hg
    rcases h : ram.seg i with - | g'
    · rw [h, Option.none_or] at hg; split at hg
      · exact hlt i g hg
      · cases hg
    · exact rlt i g' h
  · rw [withRam_cells m ram rc] at hk
    rw [withRam_seg m ram rs]
    rcases h : assocGet ram.cells k with - | w
    · rw [h, Option.none_or] at hk; split at hk
      · rename_i hp
        simp only [Bool.and_eq_true] at hp
        rw [if_pos hp.1]
        have := hb k v hk
        rcases ram.seg (k / Config.segSize) with - | g <;> simp_all
      · cases hk
    · have := rb k w h
      obtain ⟨g, hg⟩ := Option.isSome_iff_exists.1 this
      rw [hg]; rfl

end Sys2Proof.Laws
end

