-- ==== Sys2Proof/Laws/State.lean ====
section
/-! SUPPORT. Laws.State: what each small update leaves and sets, one lemma a field, so that no proof unfolds an update. -/

namespace Sys2Proof.Laws

open Sys2Proof.Machine

/-! ### `regs[o] <- v` -/

@[simp] theorem setReg_mem (c : Chip) (o : Fin 32) (v : Byte) : (c.setReg o v).mem = c.mem := rfl
@[simp] theorem setReg_lat (c : Chip) (o : Fin 32) (v : Byte) : (c.setReg o v).lat = c.lat := rfl
@[simp] theorem setReg_seq (c : Chip) (o : Fin 32) (v : Byte) : (c.setReg o v).seq = c.seq := rfl
@[simp] theorem setReg_tmr (c : Chip) (o : Fin 32) (v : Byte) : (c.setReg o v).tmr = c.tmr := rfl
@[simp] theorem setReg_irq (c : Chip) (o : Fin 32) (v : Byte) : (c.setReg o v).irq = c.irq := rfl
@[simp] theorem setReg_vid (c : Chip) (o : Fin 32) (v : Byte) : (c.setReg o v).vid = c.vid := rfl
@[simp] theorem setReg_snd (c : Chip) (o : Fin 32) (v : Byte) : (c.setReg o v).snd = c.snd := rfl
@[simp] theorem setReg_kbdLatch (c : Chip) (o : Fin 32) (v : Byte) : (c.setReg o v).kbdLatch = c.kbdLatch := rfl
@[simp] theorem setReg_callbacks (c : Chip) (o : Fin 32) (v : Byte) : (c.setReg o v).callbacks = c.callbacks := rfl
@[simp] theorem setReg_refused (c : Chip) (o : Fin 32) (v : Byte) : (c.setReg o v).refused = c.refused := rfl
@[simp] theorem setReg_cfg (c : Chip) (o : Fin 32) (v : Byte) : (c.setReg o v).cfg = c.cfg := rfl
@[simp] theorem setReg_inp (c : Chip) (o : Fin 32) (v : Byte) : (c.setReg o v).inp = c.inp := rfl
@[simp] theorem setReg_draws (c : Chip) (o : Fin 32) (v : Byte) : (c.setReg o v).draws = c.draws := rfl
@[simp] theorem setReg_trace (c : Chip) (o : Fin 32) (v : Byte) : (c.setReg o v).trace = c.trace := rfl
@[simp] theorem setReg_rf_pend1A (c : Chip) (o : Fin 32) (v : Byte) : (c.setReg o v).rf.pend1A = c.rf.pend1A := rfl
@[simp] theorem setReg_rf_pend1B (c : Chip) (o : Fin 32) (v : Byte) : (c.setReg o v).rf.pend1B = c.rf.pend1B := rfl
@[simp] theorem setReg_rf_pend1E (c : Chip) (o : Fin 32) (v : Byte) : (c.setReg o v).rf.pend1E = c.rf.pend1E := rfl
@[simp] theorem setReg_rf_pend1F (c : Chip) (o : Fin 32) (v : Byte) : (c.setReg o v).rf.pend1F = c.rf.pend1F := rfl
@[simp] theorem setReg_rf_evEven (c : Chip) (o : Fin 32) (v : Byte) : (c.setReg o v).rf.evEven = c.rf.evEven := rfl
@[simp] theorem setReg_rf_evOdd (c : Chip) (o : Fin 32) (v : Byte) : (c.setReg o v).rf.evOdd = c.rf.evOdd := rfl

/-- The register file after a register is stored. -/
theorem reg_setReg (c : Chip) (o o' : Fin 32) (v : Byte) : (c.setReg o v).reg o' = if o' = o then v else c.reg o' := by
  simp only [Chip.reg, Chip.setReg, Fin.getElem_fin, Vector.getElem_set]
  by_cases h : o' = o
  · simp [h]
  · rw [if_neg (fun e => h (Fin.ext e.symm)), if_neg h]

@[simp] theorem reg_setReg_same (c : Chip) (o : Fin 32) (v : Byte) : (c.setReg o v).reg o = v := by simp [reg_setReg]

theorem reg_setReg_ne (c : Chip) {o o' : Fin 32} (v : Byte) (h : o' ≠ o) : (c.setReg o v).reg o' = c.reg o' := by
  simp [reg_setReg, h]

/-! ### the bus value -/

@[simp] theorem drive_mem (c : Chip) (v : Byte) : (c.drive v).mem = c.mem := rfl
@[simp] theorem drive_rf (c : Chip) (v : Byte) : (c.drive v).rf = c.rf := rfl
@[simp] theorem drive_seq (c : Chip) (v : Byte) : (c.drive v).seq = c.seq := rfl
@[simp] theorem drive_tmr (c : Chip) (v : Byte) : (c.drive v).tmr = c.tmr := rfl
@[simp] theorem drive_irq (c : Chip) (v : Byte) : (c.drive v).irq = c.irq := rfl
@[simp] theorem drive_vid (c : Chip) (v : Byte) : (c.drive v).vid = c.vid := rfl
@[simp] theorem drive_snd (c : Chip) (v : Byte) : (c.drive v).snd = c.snd := rfl
@[simp] theorem drive_kbdLatch (c : Chip) (v : Byte) : (c.drive v).kbdLatch = c.kbdLatch := rfl
@[simp] theorem drive_callbacks (c : Chip) (v : Byte) : (c.drive v).callbacks = c.callbacks := rfl
@[simp] theorem drive_refused (c : Chip) (v : Byte) : (c.drive v).refused = c.refused := rfl
@[simp] theorem drive_cfg (c : Chip) (v : Byte) : (c.drive v).cfg = c.cfg := rfl
@[simp] theorem drive_inp (c : Chip) (v : Byte) : (c.drive v).inp = c.inp := rfl
@[simp] theorem drive_draws (c : Chip) (v : Byte) : (c.drive v).draws = c.draws := rfl
@[simp] theorem drive_trace (c : Chip) (v : Byte) : (c.drive v).trace = c.trace := rfl
@[simp] theorem drive_busValue (c : Chip) (v : Byte) : (c.drive v).lat.busValue = v := rfl
@[simp] theorem drive_cpuRomOn (c : Chip) (v : Byte) : (c.drive v).lat.cpuRomOn = c.lat.cpuRomOn := rfl
@[simp] theorem drive_romBankLo (c : Chip) (v : Byte) : (c.drive v).lat.romBankLo = c.lat.romBankLo := rfl
@[simp] theorem drive_romBankHi (c : Chip) (v : Byte) : (c.drive v).lat.romBankHi = c.lat.romBankHi := rfl
@[simp] theorem drive_expBank (c : Chip) (v : Byte) : (c.drive v).lat.expBank = c.lat.expBank := rfl

/-! ### the trace -/

@[simp] theorem emit_mem (c : Chip) (e : Event) : (c.emit e).mem = c.mem := rfl
@[simp] theorem emit_lat (c : Chip) (e : Event) : (c.emit e).lat = c.lat := rfl
@[simp] theorem emit_rf (c : Chip) (e : Event) : (c.emit e).rf = c.rf := rfl
@[simp] theorem emit_seq (c : Chip) (e : Event) : (c.emit e).seq = c.seq := rfl
@[simp] theorem emit_tmr (c : Chip) (e : Event) : (c.emit e).tmr = c.tmr := rfl
@[simp] theorem emit_irq (c : Chip) (e : Event) : (c.emit e).irq = c.irq := rfl
@[simp] theorem emit_vid (c : Chip) (e : Event) : (c.emit e).vid = c.vid := rfl
@[simp] theorem emit_snd (c : Chip) (e : Event) : (c.emit e).snd = c.snd := rfl
@[simp] theorem emit_kbdLatch (c : Chip) (e : Event) : (c.emit e).kbdLatch = c.kbdLatch := rfl
@[simp] theorem emit_callbacks (c : Chip) (e : Event) : (c.emit e).callbacks = c.callbacks := rfl
@[simp] theorem emit_refused (c : Chip) (e : Event) : (c.emit e).refused = c.refused := rfl
@[simp] theorem emit_cfg (c : Chip) (e : Event) : (c.emit e).cfg = c.cfg := rfl
@[simp] theorem emit_inp (c : Chip) (e : Event) : (c.emit e).inp = c.inp := rfl
@[simp] theorem emit_draws (c : Chip) (e : Event) : (c.emit e).draws = c.draws := rfl
@[simp] theorem emit_trace (c : Chip) (e : Event) : (c.emit e).trace = e :: c.trace := rfl

/-! ### the refused mark -/

@[simp] theorem refuse_mem (c : Chip) : (c.refuse).mem = c.mem := rfl
@[simp] theorem refuse_lat (c : Chip) : (c.refuse).lat = c.lat := rfl
@[simp] theorem refuse_rf (c : Chip) : (c.refuse).rf = c.rf := rfl
@[simp] theorem refuse_seq (c : Chip) : (c.refuse).seq = c.seq := rfl
@[simp] theorem refuse_tmr (c : Chip) : (c.refuse).tmr = c.tmr := rfl
@[simp] theorem refuse_irq (c : Chip) : (c.refuse).irq = c.irq := rfl
@[simp] theorem refuse_vid (c : Chip) : (c.refuse).vid = c.vid := rfl
@[simp] theorem refuse_snd (c : Chip) : (c.refuse).snd = c.snd := rfl
@[simp] theorem refuse_kbdLatch (c : Chip) : (c.refuse).kbdLatch = c.kbdLatch := rfl
@[simp] theorem refuse_callbacks (c : Chip) : (c.refuse).callbacks = c.callbacks := rfl
@[simp] theorem refuse_cfg (c : Chip) : (c.refuse).cfg = c.cfg := rfl
@[simp] theorem refuse_inp (c : Chip) : (c.refuse).inp = c.inp := rfl
@[simp] theorem refuse_draws (c : Chip) : (c.refuse).draws = c.draws := rfl
@[simp] theorem refuse_trace (c : Chip) : (c.refuse).trace = c.trace := rfl
@[simp] theorem refuse_refused (c : Chip) : c.refuse.refused = true := rfl

/-! ### the draws -/

@[simp] theorem drew_mem (c : Chip) (n : Nat) : (c.drew n).mem = c.mem := rfl
@[simp] theorem drew_lat (c : Chip) (n : Nat) : (c.drew n).lat = c.lat := rfl
@[simp] theorem drew_rf (c : Chip) (n : Nat) : (c.drew n).rf = c.rf := rfl
@[simp] theorem drew_seq (c : Chip) (n : Nat) : (c.drew n).seq = c.seq := rfl
@[simp] theorem drew_tmr (c : Chip) (n : Nat) : (c.drew n).tmr = c.tmr := rfl
@[simp] theorem drew_irq (c : Chip) (n : Nat) : (c.drew n).irq = c.irq := rfl
@[simp] theorem drew_vid (c : Chip) (n : Nat) : (c.drew n).vid = c.vid := rfl
@[simp] theorem drew_snd (c : Chip) (n : Nat) : (c.drew n).snd = c.snd := rfl
@[simp] theorem drew_kbdLatch (c : Chip) (n : Nat) : (c.drew n).kbdLatch = c.kbdLatch := rfl
@[simp] theorem drew_callbacks (c : Chip) (n : Nat) : (c.drew n).callbacks = c.callbacks := rfl
@[simp] theorem drew_refused (c : Chip) (n : Nat) : (c.drew n).refused = c.refused := rfl
@[simp] theorem drew_cfg (c : Chip) (n : Nat) : (c.drew n).cfg = c.cfg := rfl
@[simp] theorem drew_inp (c : Chip) (n : Nat) : (c.drew n).inp = c.inp := rfl
@[simp] theorem drew_trace (c : Chip) (n : Nat) : (c.drew n).trace = c.trace := rfl
@[simp] theorem drew_draws (c : Chip) (n : Nat) : (c.drew n).draws = c.draws + n := rfl

/-! ### the CPU script -/

@[simp] theorem setScript_mem (c : Chip) (l : List CpuLine) : (c.setScript l).mem = c.mem := rfl
@[simp] theorem setScript_lat (c : Chip) (l : List CpuLine) : (c.setScript l).lat = c.lat := rfl
@[simp] theorem setScript_rf (c : Chip) (l : List CpuLine) : (c.setScript l).rf = c.rf := rfl
@[simp] theorem setScript_seq (c : Chip) (l : List CpuLine) : (c.setScript l).seq = c.seq := rfl
@[simp] theorem setScript_tmr (c : Chip) (l : List CpuLine) : (c.setScript l).tmr = c.tmr := rfl
@[simp] theorem setScript_irq (c : Chip) (l : List CpuLine) : (c.setScript l).irq = c.irq := rfl
@[simp] theorem setScript_vid (c : Chip) (l : List CpuLine) : (c.setScript l).vid = c.vid := rfl
@[simp] theorem setScript_snd (c : Chip) (l : List CpuLine) : (c.setScript l).snd = c.snd := rfl
@[simp] theorem setScript_kbdLatch (c : Chip) (l : List CpuLine) : (c.setScript l).kbdLatch = c.kbdLatch := rfl
@[simp] theorem setScript_callbacks (c : Chip) (l : List CpuLine) : (c.setScript l).callbacks = c.callbacks := rfl
@[simp] theorem setScript_refused (c : Chip) (l : List CpuLine) : (c.setScript l).refused = c.refused := rfl
@[simp] theorem setScript_cfg (c : Chip) (l : List CpuLine) : (c.setScript l).cfg = c.cfg := rfl
@[simp] theorem setScript_draws (c : Chip) (l : List CpuLine) : (c.setScript l).draws = c.draws := rfl
@[simp] theorem setScript_trace (c : Chip) (l : List CpuLine) : (c.setScript l).trace = c.trace := rfl
@[simp] theorem setScript_script (c : Chip) (l : List CpuLine) : (c.setScript l).inp.cpuScript = l := rfl

/-! ### the interrupt status -/

@[simp] theorem raiseIrq_mem (c : Chip) (b : Nat) : (c.raiseIrq b).mem = c.mem := rfl
@[simp] theorem raiseIrq_lat (c : Chip) (b : Nat) : (c.raiseIrq b).lat = c.lat := rfl
@[simp] theorem raiseIrq_rf (c : Chip) (b : Nat) : (c.raiseIrq b).rf = c.rf := rfl
@[simp] theorem raiseIrq_seq (c : Chip) (b : Nat) : (c.raiseIrq b).seq = c.seq := rfl
@[simp] theorem raiseIrq_tmr (c : Chip) (b : Nat) : (c.raiseIrq b).tmr = c.tmr := rfl
@[simp] theorem raiseIrq_vid (c : Chip) (b : Nat) : (c.raiseIrq b).vid = c.vid := rfl
@[simp] theorem raiseIrq_snd (c : Chip) (b : Nat) : (c.raiseIrq b).snd = c.snd := rfl
@[simp] theorem raiseIrq_kbdLatch (c : Chip) (b : Nat) : (c.raiseIrq b).kbdLatch = c.kbdLatch := rfl
@[simp] theorem raiseIrq_callbacks (c : Chip) (b : Nat) : (c.raiseIrq b).callbacks = c.callbacks := rfl
@[simp] theorem raiseIrq_refused (c : Chip) (b : Nat) : (c.raiseIrq b).refused = c.refused := rfl
@[simp] theorem raiseIrq_cfg (c : Chip) (b : Nat) : (c.raiseIrq b).cfg = c.cfg := rfl
@[simp] theorem raiseIrq_inp (c : Chip) (b : Nat) : (c.raiseIrq b).inp = c.inp := rfl
@[simp] theorem raiseIrq_draws (c : Chip) (b : Nat) : (c.raiseIrq b).draws = c.draws := rfl
@[simp] theorem raiseIrq_trace (c : Chip) (b : Nat) : (c.raiseIrq b).trace = c.trace := rfl
@[simp] theorem raiseIrq_stat (c : Chip) (b : Nat) : (c.raiseIrq b).irq.stat = setBit c.irq.stat b := rfl
@[simp] theorem raiseIrq_line (c : Chip) (b : Nat) : (c.raiseIrq b).irq.line = c.irq.line := rfl

/-! ### a delayed-event mask -/

@[simp] theorem setEvMask_mem (c : Chip) (p : Phase) (m : BitVec 32) : (c.setEvMask p m).mem = c.mem := by
  cases p <;> rfl
@[simp] theorem setEvMask_lat (c : Chip) (p : Phase) (m : BitVec 32) : (c.setEvMask p m).lat = c.lat := by
  cases p <;> rfl
@[simp] theorem setEvMask_seq (c : Chip) (p : Phase) (m : BitVec 32) : (c.setEvMask p m).seq = c.seq := by
  cases p <;> rfl
@[simp] theorem setEvMask_tmr (c : Chip) (p : Phase) (m : BitVec 32) : (c.setEvMask p m).tmr = c.tmr := by
  cases p <;> rfl
@[simp] theorem setEvMask_irq (c : Chip) (p : Phase) (m : BitVec 32) : (c.setEvMask p m).irq = c.irq := by
  cases p <;> rfl
@[simp] theorem setEvMask_vid (c : Chip) (p : Phase) (m : BitVec 32) : (c.setEvMask p m).vid = c.vid := by
  cases p <;> rfl
@[simp] theorem setEvMask_snd (c : Chip) (p : Phase) (m : BitVec 32) : (c.setEvMask p m).snd = c.snd := by
  cases p <;> rfl
@[simp] theorem setEvMask_kbdLatch (c : Chip) (p : Phase) (m : BitVec 32) : (c.setEvMask p m).kbdLatch = c.kbdLatch := by
  cases p <;> rfl
@[simp] theorem setEvMask_callbacks (c : Chip) (p : Phase) (m : BitVec 32) : (c.setEvMask p m).callbacks = c.callbacks := by
  cases p <;> rfl
@[simp] theorem setEvMask_refused (c : Chip) (p : Phase) (m : BitVec 32) : (c.setEvMask p m).refused = c.refused := by
  cases p <;> rfl
@[simp] theorem setEvMask_cfg (c : Chip) (p : Phase) (m : BitVec 32) : (c.setEvMask p m).cfg = c.cfg := by
  cases p <;> rfl
@[simp] theorem setEvMask_inp (c : Chip) (p : Phase) (m : BitVec 32) : (c.setEvMask p m).inp = c.inp := by
  cases p <;> rfl
@[simp] theorem setEvMask_draws (c : Chip) (p : Phase) (m : BitVec 32) : (c.setEvMask p m).draws = c.draws := by
  cases p <;> rfl
@[simp] theorem setEvMask_trace (c : Chip) (p : Phase) (m : BitVec 32) : (c.setEvMask p m).trace = c.trace := by
  cases p <;> rfl
@[simp] theorem setEvMask_rf_regs (c : Chip) (p : Phase) (m : BitVec 32) : (c.setEvMask p m).rf.regs = c.rf.regs := by
  cases p <;> rfl
@[simp] theorem setEvMask_rf_pend1A (c : Chip) (p : Phase) (m : BitVec 32) : (c.setEvMask p m).rf.pend1A = c.rf.pend1A := by
  cases p <;> rfl
@[simp] theorem setEvMask_rf_pend1B (c : Chip) (p : Phase) (m : BitVec 32) : (c.setEvMask p m).rf.pend1B = c.rf.pend1B := by
  cases p <;> rfl
@[simp] theorem setEvMask_rf_pend1E (c : Chip) (p : Phase) (m : BitVec 32) : (c.setEvMask p m).rf.pend1E = c.rf.pend1E := by
  cases p <;> rfl
@[simp] theorem setEvMask_rf_pend1F (c : Chip) (p : Phase) (m : BitVec 32) : (c.setEvMask p m).rf.pend1F = c.rf.pend1F := by
  cases p <;> rfl

theorem evMask_setEvMask (c : Chip) (p q : Phase) (m : BitVec 32) :
    (c.setEvMask p m).evMask q = if q = p then m else c.evMask q := by cases p <;> cases q <;> rfl

@[simp] theorem other_other (p : Phase) : p.other.other = p := by cases p <;> rfl

/-! ### the elements a parameter sees -/

@[simp] theorem elements_mem (c : Chip) : c.elements.mem = c.mem := rfl
@[simp] theorem elements_lat (c : Chip) : c.elements.lat = c.lat := rfl
@[simp] theorem elements_rf (c : Chip) : c.elements.rf = c.rf := rfl
@[simp] theorem elements_seq (c : Chip) : c.elements.seq = c.seq := rfl
@[simp] theorem elements_tmr (c : Chip) : c.elements.tmr = c.tmr := rfl
@[simp] theorem elements_irq (c : Chip) : c.elements.irq = c.irq := rfl
@[simp] theorem elements_vid (c : Chip) : c.elements.vid = c.vid := rfl
@[simp] theorem elements_snd (c : Chip) : c.elements.snd = c.snd := rfl
@[simp] theorem elements_kbdLatch (c : Chip) : c.elements.kbdLatch = c.kbdLatch := rfl
@[simp] theorem elements_callbacks (c : Chip) : c.elements.callbacks = c.callbacks := rfl
@[simp] theorem elements_refused (c : Chip) : c.elements.refused = c.refused := rfl

/-! ### a state change of a parameter -/

@[simp] theorem change_mem (x : StateChange) (c : Chip) : (c.change x).mem = c.mem := rfl
@[simp] theorem change_tmr (x : StateChange) (c : Chip) : (c.change x).tmr = c.tmr := rfl
@[simp] theorem change_irq (x : StateChange) (c : Chip) : (c.change x).irq = c.irq := rfl
@[simp] theorem change_snd (x : StateChange) (c : Chip) : (c.change x).snd = c.snd := rfl
@[simp] theorem change_kbdLatch (x : StateChange) (c : Chip) : (c.change x).kbdLatch = c.kbdLatch := rfl
@[simp] theorem change_callbacks (x : StateChange) (c : Chip) : (c.change x).callbacks = c.callbacks := rfl
@[simp] theorem change_refused (x : StateChange) (c : Chip) : (c.change x).refused = c.refused := rfl
@[simp] theorem change_cfg (x : StateChange) (c : Chip) : (c.change x).cfg = c.cfg := rfl
@[simp] theorem change_inp (x : StateChange) (c : Chip) : (c.change x).inp = c.inp := rfl
@[simp] theorem change_draws (x : StateChange) (c : Chip) : (c.change x).draws = c.draws := rfl
@[simp] theorem change_expBank (x : StateChange) (c : Chip) : (c.change x).lat.expBank = c.lat.expBank := rfl
@[simp] theorem change_busValue (x : StateChange) (c : Chip) : (c.change x).lat.busValue = c.lat.busValue := rfl
@[simp] theorem change_cpuRomOn (x : StateChange) (c : Chip) : (c.change x).lat.cpuRomOn = x.cpuRomOn := rfl
@[simp] theorem change_romBankLo (x : StateChange) (c : Chip) : (c.change x).lat.romBankLo = x.romBankLo := rfl
@[simp] theorem change_romBankHi (x : StateChange) (c : Chip) : (c.change x).lat.romBankHi = x.romBankHi := rfl
@[simp] theorem change_rf (x : StateChange) (c : Chip) : (c.change x).rf = c.rf.changed x := rfl
@[simp] theorem change_seq (x : StateChange) (c : Chip) : (c.change x).seq = c.seq.changed x := rfl
@[simp] theorem change_vid (x : StateChange) (c : Chip) :
    (c.change x).vid = ⟨x.sr, x.fetched, x.attrBuf, x.charBuf, x.attrCur, c.vid.outBuf⟩ := rfl
@[simp] theorem change_trace (x : StateChange) (c : Chip) :
    (c.change x).trace = handOver c.seq.busMode x.busMode ++ c.trace := rfl
@[simp] theorem seq_changed_phase (x : StateChange) (q : Sequencer) : (q.changed x).phase = q.phase := rfl
@[simp] theorem seq_changed_column (x : StateChange) (q : Sequencer) : (q.changed x).column = q.column := rfl
@[simp] theorem seq_changed_videoLine (x : StateChange) (q : Sequencer) : (q.changed x).videoLine = q.videoLine := rfl
@[simp] theorem seq_changed_sndPrescale (x : StateChange) (q : Sequencer) : (q.changed x).sndPrescale = q.sndPrescale := rfl
@[simp] theorem seq_changed_ntsc (x : StateChange) (q : Sequencer) : (q.changed x).ntsc = q.ntsc := rfl
@[simp] theorem seq_changed_busMode (x : StateChange) (q : Sequencer) : (q.changed x).busMode = x.busMode := rfl
@[simp] theorem seq_changed_scWin (x : StateChange) (q : Sequencer) : (q.changed x).scWin = x.scWin := rfl
@[simp] theorem seq_changed_winH (x : StateChange) (q : Sequencer) : (q.changed x).winH = x.winH := rfl
@[simp] theorem seq_changed_winV (x : StateChange) (q : Sequencer) : (q.changed x).winV = x.winV := rfl
@[simp] theorem seq_changed_hBlank (x : StateChange) (q : Sequencer) : (q.changed x).hBlank = x.hBlank := rfl
@[simp] theorem seq_changed_vBlank (x : StateChange) (q : Sequencer) : (q.changed x).vBlank = x.vBlank := rfl
@[simp] theorem seq_changed_hSync (x : StateChange) (q : Sequencer) : (q.changed x).hSync = x.hSync := rfl
@[simp] theorem seq_changed_vSync (x : StateChange) (q : Sequencer) : (q.changed x).vSync = x.vSync := rfl
@[simp] theorem seq_changed_refresh (x : StateChange) (q : Sequencer) : (q.changed x).refresh = x.refresh := rfl
@[simp] theorem seq_changed_renderer (x : StateChange) (q : Sequencer) : (q.changed x).renderer = x.renderer := rfl
@[simp] theorem seq_changed_charSub (x : StateChange) (q : Sequencer) : (q.changed x).charSub = x.charSub := rfl
@[simp] theorem seq_changed_flashCnt (x : StateChange) (q : Sequencer) : (q.changed x).flashCnt = x.flashCnt := rfl
@[simp] theorem seq_changed_charPos (x : StateChange) (q : Sequencer) : (q.changed x).charPos = x.charPos := rfl
@[simp] theorem seq_changed_charCol (x : StateChange) (q : Sequencer) : (q.changed x).charCol = x.charCol := rfl
@[simp] theorem rf_changed_pend1A (x : StateChange) (r : RegFile) : (r.changed x).pend1A = r.pend1A := rfl
@[simp] theorem rf_changed_pend1B (x : StateChange) (r : RegFile) : (r.changed x).pend1B = r.pend1B := rfl
@[simp] theorem rf_changed_pend1E (x : StateChange) (r : RegFile) : (r.changed x).pend1E = r.pend1E := rfl
@[simp] theorem rf_changed_pend1F (x : StateChange) (r : RegFile) : (r.changed x).pend1F = r.pend1F := rfl
@[simp] theorem rf_changed_regs (x : StateChange) (r : RegFile) : (r.changed x).regs = r.regs := rfl
@[simp] theorem rf_changed_evEven (x : StateChange) (r : RegFile) :
    (r.changed x).evEven = r.evEven ||| x.evEven.setWidth 32 := rfl
@[simp] theorem rf_changed_evOdd (x : StateChange) (r : RegFile) :
    (r.changed x).evOdd = r.evOdd ||| x.evOdd.setWidth 32 := rfl

/-! ### the host's side -/

@[simp] theorem returns_chip (s : State) (r : HostResult) : (s.returns r).chip = s.chip := rfl
@[simp] theorem returns_tickBudget (s : State) (r : HostResult) : (s.returns r).tickBudget = s.tickBudget := rfl
@[simp] theorem returns_queue (s : State) (r : HostResult) : (s.returns r).host.queue = s.host.queue := rfl
@[simp] theorem returns_snapshots (s : State) (r : HostResult) : (s.returns r).host.snapshots = s.host.snapshots := rfl
@[simp] theorem returns_result (s : State) (r : HostResult) : (s.returns r).host.result = r := rfl
@[simp] theorem raise_chip (s : State) (e : HostError) : (s.raise e).chip = s.chip := rfl
@[simp] theorem raise_snapshots (s : State) (e : HostError) : (s.raise e).host.snapshots = s.host.snapshots := rfl
@[simp] theorem onChip_chip (s : State) (f : Chip → Chip) : (s.onChip f).chip = f s.chip := rfl
@[simp] theorem onChip_host (s : State) (f : Chip → Chip) : (s.onChip f).host = s.host := rfl
@[simp] theorem onChip_tickBudget (s : State) (f : Chip → Chip) : (s.onChip f).tickBudget = s.tickBudget := rfl
@[simp] theorem withQueue_chip (s : State) (q : List HostCall) : (s.withQueue q).chip = s.chip := rfl
@[simp] theorem withQueue_tickBudget (s : State) (q : List HostCall) : (s.withQueue q).tickBudget = s.tickBudget := rfl
@[simp] theorem withQueue_queue (s : State) (q : List HostCall) : (s.withQueue q).host.queue = q := rfl
@[simp] theorem withQueue_snapshots (s : State) (q : List HostCall) : (s.withQueue q).host.snapshots = s.host.snapshots := rfl


/-- The parameters at reset are the spec's defaults. -/
@[simp] theorem reset_cfg : State.reset.chip.cfg = Params.default := rfl

end Sys2Proof.Laws
end

