-- ==== Sys2Proof/Laws/Evolve.lean ====
section
/-! SUPPORT. Laws.Evolve: everything the chip's own operations can do to what they do not own. `Evolves c c'` says it once;
one lemma per operation. -/

namespace Sys2Proof.Laws

open Sys2Proof.Machine

/-- What a storage can become under CPU and chip accesses: segments and configuration stay, only bytes of RAM segments
change, and the canonical form is kept. -/
structure MemEvolves (m m' : Memory) : Prop where
  segs : m'.segs = m.segs
  size : m'.ramSizeKiB = m.ramSizeKiB
  fill : m'.fillPattern = m.fillPattern
  bytes : ∀ k, m.isRam (k / Config.segSize) = false → assocGet m'.cells k = assocGet m.cells k
  wf : m.wf = true → m'.wf = true

/-- What the chip can become under its own operations and the CPU's accesses. -/
structure Evolves (c c' : Chip) : Prop where
  cfg : c'.cfg = c.cfg
  callbacks : c'.callbacks = c.callbacks
  refused : c.refused = true → c'.refused = true
  trace : ∃ es, c'.trace = es ++ c.trace
  mem : MemEvolves c.mem c'.mem
  parts : c.cfg.valid = true → partsOk c.cfg c.rf c.seq c.vid c.snd = true →
    partsOk c'.cfg c'.rf c'.seq c'.vid c'.snd = true

theorem MemEvolves.refl (m : Memory) : MemEvolves m m := ⟨rfl, rfl, rfl, fun _ _ => rfl, id⟩

theorem isRam_of_segs {m m' : Memory} (h : m'.segs = m.segs) (i : Nat) : m'.isRam i = m.isRam i := by
  simp only [Memory.isRam, Memory.seg, h]

theorem MemEvolves.trans {m m' m'' : Memory} (h : MemEvolves m m') (h' : MemEvolves m' m'') : MemEvolves m m'' :=
  ⟨h'.segs.trans h.segs, h'.size.trans h.size, h'.fill.trans h.fill,
    fun k hk => (h'.bytes k ((isRam_of_segs h.segs _).trans hk)).trans (h.bytes k hk), fun hw => h'.wf (h.wf hw)⟩

theorem Evolves.refl (c : Chip) : Evolves c c := ⟨rfl, rfl, id, ⟨[], rfl⟩, .refl _, fun _ h => h⟩

theorem Evolves.trans {c c' c'' : Chip} (h : Evolves c c') (h' : Evolves c' c'') : Evolves c c'' where
  cfg := h'.cfg.trans h.cfg
  callbacks := h'.callbacks.trans h.callbacks
  refused hr := h'.refused (h.refused hr)
  trace := by
    obtain ⟨es, he⟩ := h.trace
    obtain ⟨es', he'⟩ := h'.trace
    exact ⟨es' ++ es, by rw [he', he, List.append_assoc]⟩
  mem := h.mem.trans h'.mem
  parts hv hp := h'.parts (by rw [h.cfg]; exact hv) (h.parts hv hp)

/-- An operation that changes none of the shared elements evolves the chip; what it does to the rest is free. -/
theorem Evolves.of_same {c c' : Chip} (hcfg : c'.cfg = c.cfg) (hcb : c'.callbacks = c.callbacks)
    (hr : c'.refused = c.refused) (ht : c'.trace = c.trace) (hm : c'.mem = c.mem)
    (hp : c.cfg.valid = true → partsOk c.cfg c.rf c.seq c.vid c.snd = true →
      partsOk c.cfg c'.rf c'.seq c'.vid c'.snd = true) : Evolves c c' :=
  ⟨hcfg, hcb, fun h => hr.trans h, ⟨[], ht⟩, hm ▸ .refl _, fun hv h => by rw [hcfg]; exact hp hv h⟩

/-- The same, where the good-state elements are untouched as well. -/
theorem Evolves.of_eq {c c' : Chip} (hcfg : c'.cfg = c.cfg) (hcb : c'.callbacks = c.callbacks)
    (hr : c'.refused = c.refused) (ht : c'.trace = c.trace) (hm : c'.mem = c.mem)
    (he : c'.rf.evEven = c.rf.evEven) (ho : c'.rf.evOdd = c.rf.evOdd) (h7 : c'.rf.regs[7] = c.rf.regs[7])
    (hn : c'.seq.ntsc = c.seq.ntsc) (hv : c'.vid.outBuf = c.vid.outBuf)
    (hs : soundOk c.cfg c.snd = true → soundOk c.cfg c'.snd = true) : Evolves c c' :=
  .of_same hcfg hcb hr ht hm fun _ hp => by
    simp only [partsOk, masksOk, standardOk, videoOk, Bool.and_eq_true, he, ho, h7, hn, hv] at hp ⊢
    exact ⟨hp.1, hs hp.2⟩

/-! ## Small updates -/

theorem evolves_setReg (c : Chip) (o : Fin 32) (v : Byte) (h : o ≠ 7) : Evolves c (c.setReg o v) :=
  .of_eq rfl rfl rfl rfl rfl rfl rfl (reg_setReg_ne c v (o' := 7) (Ne.symm h)) rfl rfl id

theorem evolves_drive (c : Chip) (v : Byte) : Evolves c (c.drive v) :=
  .of_eq rfl rfl rfl rfl rfl rfl rfl rfl rfl rfl id

theorem evolves_emit (c : Chip) (e : Event) : Evolves c (c.emit e) :=
  ⟨rfl, rfl, id, ⟨[e], rfl⟩, .refl _, fun _ h => h⟩

theorem evolves_refuse (c : Chip) : Evolves c c.refuse :=
  ⟨rfl, rfl, fun _ => rfl, ⟨[], rfl⟩, .refl _, fun _ h => h⟩

theorem evolves_drew (c : Chip) (n : Nat) : Evolves c (c.drew n) :=
  .of_eq rfl rfl rfl rfl rfl rfl rfl rfl rfl rfl id

theorem evolves_setScript (c : Chip) (l : List CpuLine) : Evolves c (c.setScript l) :=
  .of_eq rfl rfl rfl rfl rfl rfl rfl rfl rfl rfl id

theorem evolves_raiseIrq (c : Chip) (b : Nat) : Evolves c (c.raiseIrq b) :=
  .of_eq rfl rfl rfl rfl rfl rfl rfl rfl rfl rfl id

/-- A chip that differs in the latches only. -/
theorem evolves_lat (c : Chip) (l : Latches) : Evolves c { c with lat := l } :=
  .of_eq rfl rfl rfl rfl rfl rfl rfl rfl rfl rfl id

/-- A chip that differs in the sequencer only, the standard apart. -/
theorem evolves_seq (c : Chip) (q : Sequencer) (h : q.ntsc = c.seq.ntsc) : Evolves c { c with seq := q } :=
  .of_eq rfl rfl rfl rfl rfl rfl rfl rfl h rfl id

theorem evolves_tmr (c : Chip) (t : Timers) : Evolves c { c with tmr := t } :=
  .of_eq rfl rfl rfl rfl rfl rfl rfl rfl rfl rfl id

theorem evolves_irq (c : Chip) (t : Interrupts) : Evolves c { c with irq := t } :=
  .of_eq rfl rfl rfl rfl rfl rfl rfl rfl rfl rfl id

/-- A chip that differs in the video pipeline only, the buffered bytes apart. -/
theorem evolves_vid (c : Chip) (v : Video) (h : v.outBuf = c.vid.outBuf) : Evolves c { c with vid := v } :=
  .of_eq rfl rfl rfl rfl rfl rfl rfl rfl rfl h id

theorem evolves_snd (c : Chip) (t : Sound)
    (h : c.cfg.valid = true → soundOk c.cfg c.snd = true → soundOk c.cfg t = true) : Evolves c { c with snd := t } :=
  .of_same rfl rfl rfl rfl rfl fun hv hp => by
    simp only [partsOk, Bool.and_eq_true] at hp ⊢; exact ⟨hp.1, h hv hp.2⟩

theorem maskOk_events {m : BitVec 32} (h : maskOk m = true) (e : BitVec 7) :
    maskOk (m ||| e.setWidth 32) = true := by
  simp only [maskOk, beq_iff_eq] at *
  have he : e.setWidth 32 &&& 0xFFFFFF80#32 = 0#32 := by
    ext i hi
    rcases Nat.lt_or_ge i 7 with h' | h'
    · have h0 : ∀ j < 7, (0xFFFFFF80#32).getLsbD j = false := by decide
      have := h0 i h'
      rw [BitVec.getLsbD_eq_getElem hi] at this
      simp [this]
    · simp [BitVec.getElem_setWidth, BitVec.getLsbD_of_ge e i h']
  rw [show (m ||| e.setWidth 32) &&& 0xFFFFFF80#32 = (m &&& 0xFFFFFF80#32) ||| (e.setWidth 32 &&& 0xFFFFFF80#32) from by
    ext i; simp [Bool.and_or_distrib_right], h, he]; rfl

theorem maskOk_setBit {m : BitVec 32} (h : maskOk m = true) {b : Nat} (hb : b < 7) : maskOk (setBit m b) = true := by
  simp only [maskOk, beq_iff_eq, setBit] at *
  have : (1#32 <<< b) &&& 0xFFFFFF80#32 = 0#32 := by
    rcases b with _ | _ | _ | _ | _ | _ | _ | b <;> first | rfl | omega
  rw [show (m ||| 1#32 <<< b) &&& 0xFFFFFF80#32 = (m &&& 0xFFFFFF80#32) ||| ((1#32 <<< b) &&& 0xFFFFFF80#32) from by
    ext i; simp [Bool.and_or_distrib_right], h, this]; rfl

theorem evolves_setEvMask (c : Chip) (p : Phase) (m : BitVec 32) (h : maskOk (c.evMask p) = true → maskOk m = true) :
    Evolves c (c.setEvMask p m) :=
  .of_same (by simp) (by simp) (by simp) (by simp) (by simp) fun _ hp => by
    simp only [partsOk, masksOk, standardOk, Bool.and_eq_true, setEvMask_seq, setEvMask_vid, setEvMask_snd,
      setEvMask_rf_regs] at hp ⊢
    refine ⟨⟨⟨?_, hp.1.1.2⟩, hp.1.2⟩, hp.2⟩
    cases p
    · exact ⟨h hp.1.1.1.1, hp.1.1.1.2⟩
    · exact ⟨hp.1.1.1.1, h hp.1.1.1.2⟩

theorem evolves_schedule (c : Chip) (p : Phase) (b : Nat) (d : Delay) (hb : b < 7) : Evolves c (c.schedule p b d) :=
  evolves_setEvMask c _ _ fun h => maskOk_setBit h hb

/-- A chip that differs in the pending values only. -/
theorem evolves_pend (c : Chip) (a b e f : Option Byte) :
    Evolves c { c with rf.pend1A := a, rf.pend1B := b, rf.pend1E := e, rf.pend1F := f } :=
  .of_eq rfl rfl rfl rfl rfl rfl rfl rfl rfl rfl id

/-! ## Memory accesses -/

theorem evolves_memReadEffect (k : AccessKind) (a : Addr) (c : Chip) : Evolves c (memReadEffect k a c) :=
  evolves_drive c _

theorem memEvolves_write (m : Memory) (i off : Nat) (v : Byte) (h : off < Config.segSize) (hi : m.isRam i = true) :
    MemEvolves m (m.write i off v) := by
  refine ⟨rfl, rfl, rfl, fun k hk => ?_, fun hw => wf_write hw i off v h ?_⟩
  · rw [write_cells, if_neg]
    rintro rfl
    rw [cellAddr_div i off h] at hk
    rw [hk] at hi; cases hi
  · obtain ⟨s, f, hs⟩ := (isRam_eq m i).1 hi; rw [hs]; rfl

theorem evolves_mem (c : Chip) (m : Memory) (h : MemEvolves c.mem m) : Evolves c { c with mem := m } :=
  ⟨rfl, rfl, id, ⟨[], rfl⟩, h, fun _ hp => hp⟩

theorem evolves_memWrite (a : Addr) (v : Byte) (c : Chip) : Evolves c (memWrite a v c) := by
  rcases memWrite_cases a v c with ⟨i, off, -, hr, he⟩ | ⟨-, he⟩ <;> rw [he]
  · exact (evolves_mem c _ (memEvolves_write _ i _ v off.isLt hr)).trans (evolves_lat _ _)
  · exact evolves_lat c _

/-! ## Registers -/

theorem evolves_writeControl2 (p : Phase) (v : Byte) (c : Chip) : Evolves c (writeControl2 p v c) := by
  have hs := evolves_schedule (c.setReg 0x07 v) p evSelectRendererBit c.cfg.delayMode (by decide)
  generalize hc1 : (c.setReg 0x07 v).schedule p evSelectRendererBit c.cfg.delayMode = c1 at hs
  have h7 : c1.rf.regs[7] = v := by
    rw [← hc1]; simp only [Chip.schedule, setEvMask_rf_regs]; exact reg_setReg_same c 7 v
  have h2 : Evolves c (setStandard (bit v 6) c1) := by
    have hseq : c1.seq.ntsc = c.seq.ntsc := by rw [← hc1]; simp [Chip.schedule]
    refine ⟨?_, ?_, ?_, ?_, ?_, ?_⟩
    · simp only [setStandard]; split <;> exact hs.cfg
    · simp only [setStandard]; split <;> exact hs.callbacks
    · intro h; simp only [setStandard]; split <;> exact hs.refused h
    · simp only [setStandard]; split
      · exact hs.trace
      · obtain ⟨es, he⟩ := hs.trace
        exact ⟨.ntsc (bit v 6) :: es, by simp [he]⟩
    · simp only [setStandard]; split <;> exact hs.mem
    · intro hv hp
      have hmasks : masksOk (c.setReg 0x07 v).rf = true := by
        simp only [partsOk, Bool.and_eq_true] at hp; exact hp.1.1.1
      have hm1 : masksOk c1.rf = true := by
        rw [← hc1]
        simp only [masksOk, Bool.and_eq_true] at hmasks
        simp only [Chip.schedule]
        generalize (c.cfg.delayMode.target p) = q
        cases q
        · simp only [masksOk, Bool.and_eq_true]; exact ⟨maskOk_setBit hmasks.1 (by decide), hmasks.2⟩
        · simp only [masksOk, Bool.and_eq_true]; exact ⟨hmasks.1, maskOk_setBit hmasks.2 (by decide)⟩
      have hvid : c1.vid = c.vid := by rw [← hc1]; simp [Chip.schedule]
      have hsnd : c1.snd = c.snd := by rw [← hc1]; simp [Chip.schedule]
      have hcfg : c1.cfg = c.cfg := hs.cfg
      simp only [partsOk, Bool.and_eq_true] at hp
      simp only [setStandard]
      split
      · rename_i hn
        simp only [partsOk, Bool.and_eq_true, hvid, hsnd, hcfg]
        refine ⟨⟨⟨hm1, ?_⟩, hp.1.2⟩, hp.2⟩
        simp only [standardOk, h7, hn, beq_self_eq_true]
      · simp only [partsOk, Bool.and_eq_true, emit_rf, emit_seq, emit_vid, emit_snd, emit_cfg, hvid, hsnd, hcfg]
        refine ⟨⟨⟨hm1, ?_⟩, hp.1.2⟩, hp.2⟩
        simp only [standardOk, h7, beq_self_eq_true]
  have he : writeControl2 p v c =
      if bit v 5 then (setStandard (bit v 6) c1).refuse else setStandard (bit v 6) c1 := by
    rw [← hc1]; rfl
  rw [he]
  split
  · exact h2.trans (evolves_refuse _)
  · exact h2

theorem evolves_reloadChannel1 (c : Chip) : Evolves c (reloadChannel1 c) := by
  unfold reloadChannel1
  generalize c.cfg.reloadOf c.freq1 = r
  exact evolves_snd c _ fun _ h => h

theorem evolves_reloadChannel2 (c : Chip) : Evolves c (reloadChannel2 c) := by
  unfold reloadChannel2
  generalize c.cfg.reloadOf c.freq2 = r
  exact evolves_snd c _ fun _ h => h

theorem evolves_writeControl1 (p : Phase) (v : Byte) (c : Chip) : Evolves c (writeControl1 p v c) := by
  have h := (evolves_setReg c 0x06 v (by decide)).trans (evolves_schedule _ p evSelectRendererBit c.cfg.delayMode (by decide))
  have he : writeControl1 p v c = if bit v 7 then ((c.setReg 0x06 v).schedule p evSelectRendererBit c.cfg.delayMode).refuse
      else (c.setReg 0x06 v).schedule p evSelectRendererBit c.cfg.delayMode := rfl
  rw [he]; split
  · exact h.trans (evolves_refuse _)
  · exact h

/-- Every register write. -/
theorem evolves_writeRule (p : Phase) (o : Fin 32) (v : Byte) (c : Chip) : Evolves c (writeRule p o v c) := by
  have hr : ∀ o : Fin 32, o ≠ 7 → Evolves c (c.setReg o v) := fun o h => evolves_setReg c o v h
  have hpA := evolves_pend c (some v) c.rf.pend1B c.rf.pend1E c.rf.pend1F
  have hpB := evolves_pend c c.rf.pend1A (some v) c.rf.pend1E c.rf.pend1F
  have hpE := evolves_pend c c.rf.pend1A c.rf.pend1B (some v) c.rf.pend1F
  have hpF := evolves_pend c c.rf.pend1A c.rf.pend1B c.rf.pend1E (some v)
  unfold writeRule
  split
  · exact (hr 0x00 (by decide)).trans (evolves_tmr _ _)
  · exact (hr 0x01 (by decide)).trans (evolves_tmr _ _)
  · exact (hr 0x02 (by decide)).trans (evolves_tmr _ _)
  · exact (hr 0x03 (by decide)).trans (evolves_tmr _ _)
  · exact (hr 0x04 (by decide)).trans (evolves_tmr _ _)
  · exact (hr 0x05 (by decide)).trans (evolves_tmr _ _)
  · exact evolves_writeControl1 p v c
  · exact evolves_writeControl2 p v c
  · exact (hr 0x08 (by decide)).trans (.of_eq rfl rfl rfl rfl rfl rfl rfl rfl rfl rfl id)
  · exact (hr 0x09 (by decide)).trans (evolves_irq _ _)
  · exact hr 0x0A (by decide)
  · exact hr 0x0B (by decide)
  · exact hr 0x0C (by decide)
  · exact hr 0x0D (by decide)
  · exact (hr 0x0E (by decide)).trans (evolves_reloadChannel1 _)
  · exact (hr 0x0F (by decide)).trans (evolves_reloadChannel2 _)
  · exact (hr 0x10 (by decide)).trans (evolves_reloadChannel2 _)
  · exact hr 0x11 (by decide)
  · exact (hr 0x12 (by decide)).trans (evolves_reloadChannel1 _)
  · exact hr 0x13 (by decide)
  · exact hr 0x14 (by decide)
  · exact hr 0x15 (by decide)
  · exact hr 0x16 (by decide)
  · exact hr 0x17 (by decide)
  · exact hr 0x18 (by decide)
  · exact hr 0x19 (by decide)
  · exact hpA.trans (evolves_schedule _ _ _ _ (by decide))
  · exact hpB.trans (evolves_schedule _ _ _ _ (by decide))
  · exact (hr 0x1C (by decide)).trans (evolves_seq _ _ rfl)
  · exact (hr 0x1D (by decide)).trans (evolves_seq _ _ rfl)
  · exact hpE.trans (evolves_schedule _ _ _ _ (by decide))
  · exact hpF.trans (evolves_schedule _ _ _ _ (by decide))

/-! ## CPU-bus handlers -/

theorem evolves_drewOnRead (o : Fin 32) (c : Chip) : Evolves c (drewOnRead o c) := by
  unfold drewOnRead; split
  · exact evolves_drew c 1
  · exact .refl c

theorem evolves_deliver (a : Addr) (v : Byte) (c : Chip) : Evolves c (deliver a v c) :=
  (evolves_drive c v).trans (evolves_emit _ _)

theorem evolves_accept (a : Addr) (v : Byte) (c : Chip) : Evolves c (accept a v c) :=
  (evolves_drive c v).trans (evolves_emit _ _)

theorem evolves_cpuReadReg (o : Fin 32) (c : Chip) : Evolves c (cpuReadReg o c) :=
  (evolves_deliver _ _ c).trans (evolves_drewOnRead o _)

theorem evolves_cpuWriteReg (o : Fin 32) (v : Byte) (c : Chip) : Evolves c (cpuWriteReg o v c) :=
  (evolves_accept _ v c).trans (evolves_writeRule _ o v _)

theorem evolves_cpuRomOn (v : Byte) (c : Chip) : Evolves c (cpuRomOn v c) :=
  (evolves_accept _ v c).trans (evolves_lat _ _)

theorem evolves_cpuRomOff (v : Byte) (c : Chip) : Evolves c (cpuRomOff v c) :=
  (evolves_accept _ v c).trans (evolves_lat _ _)

theorem evolves_cpuSetBanks (x : BitVec 4) (v : Byte) (c : Chip) : Evolves c (cpuSetBanks x v c) :=
  (evolves_accept _ v c).trans (evolves_lat _ _)

theorem evolves_cpuMemRead (a : Addr) (c : Chip) : Evolves c (cpuMemRead a c) := evolves_deliver _ _ c

theorem evolves_cpuMemWrite (a : Addr) (v : Byte) (c : Chip) : Evolves c (cpuMemWrite a v c) :=
  (evolves_accept a v c).trans (evolves_memWrite a v _)

theorem evolves_ioDeliver (a : Addr) (c : Chip) (x : IoAnswer) : Evolves c (ioDeliver a c x) := by
  cases x
  · exact evolves_deliver a _ c
  · exact evolves_deliver a _ c
  · exact evolves_cpuMemRead a c

theorem evolves_ioRead (a : Addr) (c : Chip) : Evolves c (ioRead a c) := by
  unfold ioRead; split
  · exact evolves_cpuMemRead a c
  · exact (evolves_ioDeliver a c _).trans (evolves_drew _ 1)

theorem evolves_ioWrite (a : Addr) (v : Byte) (c : Chip) : Evolves c (ioWrite a v c) := by
  unfold ioWrite; split
  · exact evolves_cpuMemWrite a v c
  · refine Evolves.trans ?_ (evolves_drew _ 1)
    split
    · exact evolves_accept a v c
    · exact evolves_cpuMemWrite a v c

/-- Every CPU read. -/
theorem evolves_busRead (a : Addr) (c : Chip) : Evolves c (busRead a c) := by
  unfold busRead; split_ifs
  · exact evolves_cpuReadReg _ c
  · exact evolves_ioRead a c
  · exact evolves_cpuMemRead a c

/-- Every CPU write. -/
theorem evolves_busWrite (a : Addr) (v : Byte) (c : Chip) : Evolves c (busWrite a v c) := by
  unfold busWrite; split_ifs
  · exact evolves_cpuWriteReg _ v c
  · exact evolves_cpuRomOn v c
  · exact evolves_cpuRomOff v c
  · exact evolves_cpuSetBanks _ v c
  · exact evolves_ioWrite a v c
  · exact evolves_cpuMemWrite a v c

/-! ## Micro-operations -/

theorem evolves_loadHpos (p : Phase) (c : Chip) : Evolves c (loadHpos p c) := by
  unfold loadHpos
  split
  · exact .refl c
  · rename_i v _
    have h := (evolves_setReg c 0x1E v (by decide)).trans
      (evolves_pend _ c.rf.pend1A c.rf.pend1B none c.rf.pend1F)
    split
    · exact h.trans (evolves_seq _ _ rfl)
    · exact h.trans (evolves_refuse _)

theorem evolves_applyPend1A (c : Chip) : Evolves c (applyPend1A c) := by
  unfold applyPend1A
  split
  · exact .refl c
  · exact (evolves_setReg c 0x1A _ (by decide)).trans (evolves_pend _ none c.rf.pend1B c.rf.pend1E c.rf.pend1F)

theorem evolves_applyPend1B (c : Chip) : Evolves c (applyPend1B c) := by
  unfold applyPend1B
  split
  · exact .refl c
  · exact (evolves_setReg c 0x1B _ (by decide)).trans (evolves_pend _ c.rf.pend1A none c.rf.pend1E c.rf.pend1F)

theorem evolves_loadVsub (c : Chip) : Evolves c (loadVsub c) := by
  unfold loadVsub
  split
  · exact .refl c
  · exact ((evolves_setReg c 0x1F _ (by decide)).trans
      (evolves_pend _ c.rf.pend1A c.rf.pend1B c.rf.pend1E none)).trans (evolves_seq _ _ rfl)

theorem evolves_verticalWindow (c : Chip) : Evolves c (verticalWindow c) := by
  have h : Evolves c (if c.seq.videoLine = c.vstart then { c with seq.winV := c.den } else c) := by
    split
    · exact evolves_seq _ _ rfl
    · exact .refl c
  unfold verticalWindow
  refine h.trans ?_
  generalize (if c.seq.videoLine = c.vstart then { c with seq.winV := c.den } else c) = c1
  show Evolves c1 (if _ then _ else _)
  split
  · exact evolves_seq _ _ rfl
  · exact .refl c1

theorem evolves_frameStart (c : Chip) : Evolves c (frameStart c) := by
  unfold frameStart
  split
  · exact ((evolves_setReg c 0x1A _ (by decide)).trans (evolves_setReg _ 0x1B 0 (by decide))).trans
      (evolves_seq _ _ rfl)
  · exact .refl c

theorem evolves_compareRaster (c : Chip) : Evolves c (compareRaster c) := by
  unfold compareRaster
  split
  · exact evolves_raiseIrq c 1
  · exact .refl c

/-- Whatever state change a parameter gives. -/
theorem evolves_change (x : StateChange) (c : Chip) : Evolves c (c.change x) where
  cfg := rfl
  callbacks := rfl
  refused := id
  trace := ⟨_, rfl⟩
  mem := .refl _
  parts _ hp := by
    simp only [partsOk, masksOk, Bool.and_eq_true] at hp ⊢
    exact ⟨⟨⟨⟨maskOk_events hp.1.1.1.1 _, maskOk_events hp.1.1.1.2 _⟩, hp.1.1.2⟩, hp.1.2⟩, hp.2⟩

theorem evolves_updateRow (x : RowUpdate) (c : Chip) : Evolves c (c.updateRow x) :=
  ((evolves_change x.rest c).trans (evolves_setReg _ 0x1A _ (by decide))).trans (evolves_setReg _ 0x1B _ (by decide))

theorem evolves_incrementLine (x : LineIncrement) (c : Chip) : Evolves c (c.incrementLine x) := by
  have h := (evolves_updateRow x.row c).trans (evolves_seq _ { (c.updateRow x.row).seq with videoLine := x.line } rfl)
  unfold Chip.incrementLine
  split
  · exact h.trans (evolves_raiseIrq _ 1)
  · exact h

theorem evolves_defaultIncLine (c : Chip) : Evolves c (defaultIncLine c) :=
  (((evolves_seq c { c.seq with videoLine := c.nextLine } rfl).trans (evolves_verticalWindow _)).trans
    (evolves_frameStart _)).trans (evolves_compareRaster _)

theorem evolves_incVideoLine (c : Chip) : Evolves c (incVideoLine c) := by
  unfold incVideoLine; split
  · exact evolves_defaultIncLine c
  · exact evolves_incrementLine _ c

theorem evolves_setCposReload (c : Chip) (x : BitVec 10) : Evolves c (c.setCposReload x) :=
  (evolves_setReg c 0x1A _ (by decide)).trans (evolves_setReg _ 0x1B _ (by decide))

theorem evolves_defaultVsubUpdate (c : Chip) : Evolves c (defaultVsubUpdate c) := by
  have h := evolves_seq c { c.seq with charSub := 0 } rfl
  simp only [defaultVsubUpdate]
  split_ifs
  · exact h
  · exact h.trans (evolves_setCposReload _ _)
  · exact evolves_seq c _ rfl
  · exact .refl c

theorem evolves_updateVsub (c : Chip) : Evolves c (updateVsub c) := by
  unfold updateVsub; split
  · exact evolves_defaultVsubUpdate c
  · exact evolves_updateRow _ c

theorem evolves_stopDma (c : Chip) : Evolves c (stopDma c) := by
  simp only [stopDma]
  split
  · exact (evolves_emit c _).trans (evolves_seq _ _ rfl)
  · exact evolves_seq c _ rfl

/-- Every micro-operation. -/
theorem evolves_microOp (p : Phase) (b : Nat) (c : Chip) : Evolves c (microOp p b c) := by
  unfold microOp
  split
  · exact evolves_loadHpos p c
  · exact (evolves_applyPend1A c).trans (evolves_applyPend1B _)
  · exact evolves_loadVsub c
  · exact evolves_incVideoLine c
  · exact evolves_updateVsub c
  · exact evolves_seq c _ rfl
  · exact evolves_stopDma c
  · exact .refl c

theorem evolves_runEvents (p : Phase) (m : BitVec 32) (bs : List Nat) (c : Chip) : Evolves c (runEvents p m bs c) := by
  induction bs generalizing c with
  | nil => exact .refl c
  | cons b bs ih =>
    refine Evolves.trans ?_ (ih _)
    split
    · exact evolves_microOp p b c
    · exact .refl c

theorem evolves_dispatch (p : Phase) (c : Chip) : Evolves c (dispatch p c) :=
  (evolves_setEvMask c p 0 fun _ => rfl).trans (evolves_runEvents _ _ _ _)

/-! ## Video -/

theorem bit_or (x y : Byte) (i : Nat) : bit (x ||| y) i = (bit x i || bit y i) := BitVec.getLsbD_or

theorem bit_byteBit_ne (b : Bool) (i j : Fin 8) (h : i ≠ j) : bit (byteBit b j.val) i.val = false := by
  revert i j; cases b <;> decide

/-- The flags of a record leave the place of the SOLID bit free (R951). -/
theorem recordFlags_bit (c : Chip) (hv : c.cfg.valid = true) (b : Bool) :
    bit (c.recordFlags b) c.solidBit = false := by
  have hl : c.cfg.flagsLayout.ok = true := by
    simp only [Params.valid, Bool.and_eq_true] at hv; exact hv.1.2
  simp only [FlagsLayout.ok, decide_eq_true_eq, List.nodup_cons, List.mem_cons, List.not_mem_nil, or_false, not_or] at hl
  obtain ⟨h1, h2, h3, h4, h5⟩ := hl.1
  simp only [Chip.recordFlags, Chip.solidBit, bit_or, bit_byteBit_ne _ _ _ h1, bit_byteBit_ne _ _ _ h2,
    bit_byteBit_ne _ _ _ h3, bit_byteBit_ne _ _ _ h4, bit_byteBit_ne _ _ _ h5, Bool.or_false]

theorem wholeRecords_solid (n : Nat) (f c0 : Byte) (rest : List Byte) (h : bit f n = true) :
    wholeRecords n (f :: c0 :: rest) = wholeRecords n rest := by
  rw [wholeRecords.eq_def]; simp only [h, if_true]

theorem wholeRecords_mixed (n : Nat) (f c0 c1 c2 c3 : Byte) (rest : List Byte) (h : bit f n = false) :
    wholeRecords n (f :: c0 :: c1 :: c2 :: c3 :: rest) = wholeRecords n rest := by
  rw [wholeRecords.eq_def]; simp only [h, Bool.false_eq_true, if_false]

theorem bit_setBit_same (v : Byte) (i : Fin 8) : bit (setBit v i.val) i.val = true := by
  simp only [bit, setBit, BitVec.getLsbD_or]
  rw [show ((1#8) <<< i.val).getLsbD i.val = true from by revert i; decide, Bool.or_true]

/-- Appending a record to whole records gives whole records. -/
theorem wholeRecords_append (n : Fin 8) (l : List Byte) (g : Group) (f : Byte) (hf : bit f n.val = false)
    (h : wholeRecords n.val l = true) : wholeRecords n.val (l ++ g.record n.val f) = true := by
  have hg : wholeRecords n.val (g.record n.val f) = true := by
    unfold Group.record
    split
    · rw [wholeRecords_solid _ _ _ _ (bit_setBit_same f n)]; rfl
    · rw [wholeRecords_mixed _ _ _ _ _ _ _ hf]; rfl
  fun_induction wholeRecords n.val l with
  | case1 => exact hg
  | case2 f' c0 rest hb ih =>
    rw [List.cons_append, List.cons_append, wholeRecords_solid _ _ _ _ hb]; exact ih h
  | case3 f' c0 hb c1 c2 c3 rest ih =>
    simp only [List.cons_append]
    rw [wholeRecords_mixed _ _ _ _ _ _ _ (by simpa using hb)]; exact ih h
  | case4 => cases h
  | case5 => cases h

theorem record_length (g : Group) (n : Nat) (f : Byte) : 2 ≤ (g.record n f).length ∧ (g.record n f).length ≤ 5 := by
  unfold Group.record; split <;> simp

theorem evolves_append (sel : RenderSel) (g : Group) (c : Chip) : Evolves c (append sel g c) := by
  have hw := fun hv => wholeRecords_append c.cfg.flagsLayout.solid c.vid.outBuf g (c.recordFlags sel.isBorder)
    (recordFlags_bit c hv _)
  unfold append flushCheck
  split
  · refine ⟨rfl, rfl, id, ⟨[_], rfl⟩, .refl _, fun _ hp => ?_⟩
    simp only [partsOk, videoOk, Bool.and_eq_true] at hp ⊢
    exact ⟨⟨hp.1.1, rfl, rfl⟩, hp.2⟩
  · rename_i hlen
    refine ⟨rfl, rfl, id, ⟨[], rfl⟩, .refl _, fun hv hp => ?_⟩
    simp only [partsOk, videoOk, Bool.and_eq_true, decide_eq_true_eq] at hp ⊢
    exact ⟨⟨hp.1.1, Nat.le_of_not_lt hlen, hw hv hp.1.2.2⟩, hp.2⟩

theorem evolves_emitGroup (sel : RenderSel) (rem : Nat) (g : Group) (c : Chip) : Evolves c (emitGroup sel rem g c) :=
  ((evolves_drew c _).trans (evolves_append _ _ _)).trans (evolves_vid _ _ rfl)

/-- The render step invokes the renderer with `sr.flags` itself unless RVSOFF or the cursor position has changed since the
load. -/
theorem renderStep_of_flagsCurrent (p : Phase) (c : Chip) (h : c.flagsCurrent = true) :
    renderStep p c = renderWith (renderSelection c) p c := by
  simp [renderStep, renderWith, RenderSel.invoke, Chip.flagsNow, h]

/-- R930: `R` is a function of `sr`, `regs`, `flashCnt` and `P_REM` (and of the parameters and the draws). -/
theorem invoke_congr {c d : Chip} (hs : d.vid.sr = c.vid.sr) (hr : d.rf.regs = c.rf.regs)
    (hf : d.seq.flashCnt = c.seq.flashCnt) (hc : d.cfg = c.cfg) (hd : d.draws = c.draws) (sel : RenderSel) (rem : Nat) :
    sel.invoke rem d = sel.invoke rem c := by
  obtain ⟨_, _, ⟨_, _, _, _, _, _, _⟩, q, _, _, ⟨_, _, _, _, _, _⟩, _, _, _, _, _, _, _, _⟩ := c
  obtain ⟨_, _, ⟨_, _, _, _, _, _, _⟩, q', _, _, ⟨_, _, _, _, _, _⟩, _, _, _, _, _, _, _, _⟩ := d
  obtain ⟨_, _, _, _, _, _, _, _, _, _, _, _, _, _, _, _, _, _, _⟩ := q
  obtain ⟨_, _, _, _, _, _, _, _, _, _, _, _, _, _, _, _, _, _, _⟩ := q'
  subst hs hr hf hc hd
  rfl

theorem evolves_loadShiftReg (c : Chip) : Evolves c (loadShiftReg c) := by
  unfold loadShiftReg
  split
  · exact .of_eq rfl rfl rfl rfl rfl rfl rfl rfl rfl rfl id
  · exact .refl c

/-! ## Sound -/

theorem channelStep_decay (n : Nat) (ch : Channel) (h : ch.decay ≤ n) : (ch.step n).decay ≤ n := by
  unfold Channel.step; split
  · exact Nat.zero_le _
  · simp only; split <;> omega

theorem lfsrStep_lt (p : Params) (x : Nat) : lfsrStep p x < 2 ^ p.lfsrWidth := Nat.mod_lt _ (Nat.two_pow_pos _)

theorem level_le (c : Chip) (h : c.cfg.valid = true) : level c ≤ Config.levelMax := by
  have ht : soundTablesOk c.cfg = true := by simp only [Params.valid, Bool.and_eq_true] at h; exact h.2
  simp only [soundTablesOk, Bool.and_eq_true, List.all_eq_true, decide_eq_true_eq] at ht
  have hm : mixIndex c < c.cfg.mix.length := by rw [ht.1.1.1.2]; exact BitVec.isLt _
  have hv : c.volume.toNat < c.cfg.vol.length := by rw [ht.1.1.2]; exact BitVec.isLt _
  rw [level, List.getD_eq_getElem _ _ hm, List.getD_eq_getElem _ _ hv]
  exact (ht.2 _ (List.getElem_mem hm) _ (List.getElem_mem hv)).2

theorem evolves_stepChannels (c : Chip) : Evolves c (stepChannels c) := by
  unfold stepChannels
  split
  · exact .refl c
  · refine Evolves.trans (c' := stepChannel1 c) (evolves_snd c _ fun _ h => ?_) (evolves_snd _ _ fun _ h => ?_)
    · simp only [soundOk, Bool.and_eq_true, decide_eq_true_eq] at h ⊢
      exact ⟨⟨⟨channelStep_decay _ _ h.1.1.1, h.1.1.2⟩, h.1.2⟩, h.2⟩
    · simp only [soundOk, Bool.and_eq_true, decide_eq_true_eq] at h ⊢
      refine ⟨⟨⟨h.1.1.1, channelStep_decay _ _ h.1.1.2⟩, ?_⟩, h.2⟩
      split
      · exact lfsrStep_lt _ _
      · exact h.1.2

theorem evolves_playLevel (c : Chip) : Evolves c (playLevel c) :=
  (evolves_emit c _).trans <| evolves_snd (c.emit (.sample (sampleOf c))) _ fun hv h => by
    simp only [soundOk, Bool.and_eq_true, decide_eq_true_eq] at h ⊢
    exact ⟨h.1, level_le c hv⟩

theorem evolves_soundTick (c : Chip) : Evolves c (soundTick c) :=
  (evolves_stepChannels c).trans (evolves_playLevel _)

theorem evolves_dacForce (c : Chip) : Evolves c (dacForce c) :=
  evolves_snd c _ fun hv h => by
    simp only [Params.valid, Bool.and_eq_true, decide_eq_true_eq] at hv
    simp only [soundOk, Bool.and_eq_true, decide_eq_true_eq] at h ⊢
    exact ⟨⟨⟨hv.1.1.1.1.1.1.1.1.2, hv.1.1.1.1.1.1.1.2⟩, h.1.2⟩, h.2⟩

/-! ## The engine -/

theorem evolves_transition (t : Transition) (p : Phase) (c : Chip) : Evolves c (t.apply p c) := by
  cases t
  case lineIncrement =>
    have h := (evolves_schedule c p evIncVideoLineBit .half (by decide)).trans
      (evolves_schedule _ p evUpdateVsubBit .half (by decide))
    simp only [Transition.apply, scheduleLine]
    split
    · exact h
    · exact h.trans (evolves_schedule _ p evStopDmaBit .half (by decide))
  case dmaGrant => exact (evolves_seq c { c.seq with busMode := .chipDma } rfl).trans (evolves_emit _ _)
  case change x => exact evolves_change _ c
  all_goals exact evolves_seq c _ rfl

theorem evolves_applyTransitions (p : Phase) (ts : List Transition) (c : Chip) :
    Evolves c (applyTransitions p ts c) := by
  induction ts generalizing c with
  | nil => exact .refl c
  | cons t ts ih => exact (evolves_transition t p c).trans (ih _)

theorem evolves_runCallbacks (p : Phase) (l : List (Nat × Nat)) (c : Chip) : Evolves c (runCallbacks p l c) := by
  induction l generalizing c with
  | nil => exact .refl c
  | cons e l ih => exact (evolves_emit c _).trans (ih _)

theorem evolves_cpuStepHigh (c : Chip) : Evolves c (cpuStepHigh c) := by
  have h := evolves_emit c (.runRdyHigh c.cfg.cpuMult)
  simp only [cpuStepHigh]
  split
  · exact h
  · exact h.trans (evolves_setScript _ _)
  · exact (h.trans (evolves_setScript _ _)).trans (evolves_busRead _ _)
  · exact (h.trans (evolves_setScript _ _)).trans (evolves_busWrite _ _ _)

theorem evolves_cpuStepLow (c : Chip) : Evolves c (cpuStepLow c) := by
  have h := evolves_emit c (.runRdyLow c.cfg.cpuMult)
  simp only [cpuStepLow]
  split
  · exact (h.trans (evolves_setScript _ _)).trans (evolves_busWrite _ _ _)
  · exact h

theorem evolves_dmaFetch (c : Chip) : Evolves c (dmaFetch c) := by
  unfold dmaFetch
  split_ifs
  · exact (evolves_memReadEffect _ _ c).trans (evolves_vid _ _ rfl)
  · exact (evolves_memReadEffect _ _ c).trans (evolves_vid _ _ rfl)
  · exact .refl c

theorem evolves_bitmapFetch (c : Chip) : Evolves c (bitmapFetch c) := by
  unfold bitmapFetch
  split_ifs
  · exact (evolves_memReadEffect _ _ c).trans (evolves_vid _ _ rfl)
  · exact .refl c
  · exact .refl c

theorem evolves_evenBusStep (c : Chip) : Evolves c (evenBusStep c) := by
  unfold evenBusStep; split
  · exact evolves_cpuStepHigh c
  · exact evolves_cpuStepLow c
  · exact evolves_dmaFetch c

theorem evolves_oddBusStep (c : Chip) : Evolves c (oddBusStep c) := by
  unfold oddBusStep; split_ifs
  · exact .refl c
  · exact evolves_bitmapFetch c
  · split
    · exact .refl c
    · exact evolves_cpuStepHigh c
    · exact evolves_cpuStepLow c

theorem evolves_updateTimer1 (c : Chip) : Evolves c (updateTimer1 c) := by
  unfold updateTimer1; split_ifs
  · exact (evolves_tmr c _).trans (evolves_raiseIrq _ _)
  · exact evolves_tmr c _
  · exact .refl c

theorem evolves_updateTimer2 (c : Chip) : Evolves c (updateTimer2 c) := by
  unfold updateTimer2; split_ifs
  · exact (evolves_tmr c _).trans (evolves_raiseIrq _ _)
  · exact evolves_tmr c _
  · exact .refl c

theorem evolves_updateTimer3 (c : Chip) : Evolves c (updateTimer3 c) := by
  unfold updateTimer3; split_ifs
  · exact (evolves_tmr c _).trans (evolves_raiseIrq _ _)
  · exact evolves_tmr c _
  · exact .refl c

theorem evolves_interruptCheck (c : Chip) : Evolves c c.interruptCheck := by
  unfold Chip.interruptCheck; split
  · exact .refl c
  · exact (evolves_irq c { c.irq with line := c.irqActive }).trans (evolves_emit _ _)

theorem evolves_callbackStep (p : Phase) (c : Chip) : Evolves c (callbackStep p c) := evolves_runCallbacks p _ c

theorem evolves_endPhase (p : Phase) (c : Chip) : Evolves c (endPhase p c) := evolves_seq c _ rfl

theorem evolves_beginPhase (p : Phase) (c : Chip) : Evolves c (beginPhase p c) :=
  (((evolves_seq c { c.seq with phase := p } rfl).trans (evolves_dispatch p _)).trans
    (evolves_applyTransitions p _ _)).trans (evolves_callbackStep p _)

/-- A whole EVEN phase. -/
theorem evolves_phaseEven (c : Chip) : Evolves c (phaseEven c) :=
  (((((evolves_beginPhase .even c).trans (evolves_evenBusStep _)).trans (evolves_emitGroup _ _ _ _)).trans
    (evolves_updateTimer1 _)).trans (evolves_interruptCheck _)).trans (evolves_endPhase _ _)

/-- A whole ODD phase. -/
theorem evolves_phaseOdd (c : Chip) : Evolves c (phaseOdd c) :=
  ((((((evolves_beginPhase .odd c).trans (evolves_oddBusStep _)).trans (evolves_emitGroup _ _ _ _)).trans
    (evolves_loadShiftReg _)).trans (evolves_updateTimer2 _)).trans (evolves_updateTimer3 _)).trans
    (evolves_endPhase _ _)

theorem evolves_cycleEnd (c : Chip) : Evolves c (cycleEnd c) := by
  have h1 : Evolves c (dacStep c) := by
    unfold dacStep; split
    · exact evolves_dacForce c
    · exact .refl c
  have h2 : Evolves c (advancePrescale (dacStep c)) := h1.trans (evolves_seq _ _ rfl)
  refine h2.trans ?_
  unfold cycleEnd soundStep; split
  · exact evolves_soundTick _
  · exact .refl _

/-- A whole cycle. -/
theorem evolves_cycle (c : Chip) : Evolves c (cycle c) :=
  ((evolves_phaseEven c).trans (evolves_phaseOdd _)).trans (evolves_cycleEnd _)

/-- Any number of cycles. -/
theorem evolves_runLoop (fuel : Nat) (b : Int) (c : Chip) : Evolves c (runLoop fuel b c).2 := by
  induction fuel generalizing b c with
  | zero => exact .refl c
  | succ n ih =>
    unfold runLoop; split
    · exact (evolves_cycle c).trans (ih _ _)
    · exact .refl c

theorem evolves_runBudget (b : Int) (c : Chip) : Evolves c (runBudget b c).2 := evolves_runLoop _ _ _

end Sys2Proof.Laws
end

