-- ==== Sys2Proof/Laws/PerInstr.lean ====
section
/-! SUPPORT. Laws.PerInstr: the words the encoder writes fit the widths of their formats (R300, R310, R320, R330, R340),
instruction by instruction. -/

namespace Sys2Proof.Laws

/-- The word of an operation fits its format: 17 bits and, beside a write only, a data byte; 4, 2, 5 and 5 bits. -/
def wordOk (w : OpWord) : Bool :=
  match w.fmt, w.bytes with
  | .bus, [_, _, d] => d == 1
  | .bus, [_, _, d, _] => d == 0
  | .host, b :: _ => decide (b.toNat < 16)
  | .step, [b] => decide (b.toNat < 4)
  | .event, [b] => decide (b.toNat < 32)
  | .render, [b] => decide (b.toNat < 32)
  | _, _ => false

def WordBits.Statement (i : Instr) : Prop := wordOk (encode i) = true

theorem WordBits.rdFF00 : WordBits.Statement (.rdFF00) := rfl
theorem WordBits.rdFF01 : WordBits.Statement (.rdFF01) := rfl
theorem WordBits.rdFF02 : WordBits.Statement (.rdFF02) := rfl
theorem WordBits.rdFF03 : WordBits.Statement (.rdFF03) := rfl
theorem WordBits.rdFF04 : WordBits.Statement (.rdFF04) := rfl
theorem WordBits.rdFF05 : WordBits.Statement (.rdFF05) := rfl
theorem WordBits.rdFF06 : WordBits.Statement (.rdFF06) := rfl
theorem WordBits.rdFF07 : WordBits.Statement (.rdFF07) := rfl
theorem WordBits.rdFF08 : WordBits.Statement (.rdFF08) := rfl
theorem WordBits.rdFF09 : WordBits.Statement (.rdFF09) := rfl
theorem WordBits.rdFF0A : WordBits.Statement (.rdFF0A) := rfl
theorem WordBits.rdFF0B : WordBits.Statement (.rdFF0B) := rfl
theorem WordBits.rdFF0C : WordBits.Statement (.rdFF0C) := rfl
theorem WordBits.rdFF0D : WordBits.Statement (.rdFF0D) := rfl
theorem WordBits.rdFF0E : WordBits.Statement (.rdFF0E) := rfl
theorem WordBits.rdFF0F : WordBits.Statement (.rdFF0F) := rfl
theorem WordBits.rdFF10 : WordBits.Statement (.rdFF10) := rfl
theorem WordBits.rdFF11 : WordBits.Statement (.rdFF11) := rfl
theorem WordBits.rdFF12 : WordBits.Statement (.rdFF12) := rfl
theorem WordBits.rdFF13 : WordBits.Statement (.rdFF13) := rfl
theorem WordBits.rdFF14 : WordBits.Statement (.rdFF14) := rfl
theorem WordBits.rdFF15 : WordBits.Statement (.rdFF15) := rfl
theorem WordBits.rdFF16 : WordBits.Statement (.rdFF16) := rfl
theorem WordBits.rdFF17 : WordBits.Statement (.rdFF17) := rfl
theorem WordBits.rdFF18 : WordBits.Statement (.rdFF18) := rfl
theorem WordBits.rdFF19 : WordBits.Statement (.rdFF19) := rfl
theorem WordBits.rdFF1A : WordBits.Statement (.rdFF1A) := rfl
theorem WordBits.rdFF1B : WordBits.Statement (.rdFF1B) := rfl
theorem WordBits.rdFF1C : WordBits.Statement (.rdFF1C) := rfl
theorem WordBits.rdFF1D : WordBits.Statement (.rdFF1D) := rfl
theorem WordBits.rdFF1E : WordBits.Statement (.rdFF1E) := rfl
theorem WordBits.rdFF1F : WordBits.Statement (.rdFF1F) := rfl
theorem WordBits.wrFF00 (v : Byte) : WordBits.Statement (.wrFF00 v) := rfl
theorem WordBits.wrFF01 (v : Byte) : WordBits.Statement (.wrFF01 v) := rfl
theorem WordBits.wrFF02 (v : Byte) : WordBits.Statement (.wrFF02 v) := rfl
theorem WordBits.wrFF03 (v : Byte) : WordBits.Statement (.wrFF03 v) := rfl
theorem WordBits.wrFF04 (v : Byte) : WordBits.Statement (.wrFF04 v) := rfl
theorem WordBits.wrFF05 (v : Byte) : WordBits.Statement (.wrFF05 v) := rfl
theorem WordBits.wrFF06 (v : Byte) : WordBits.Statement (.wrFF06 v) := rfl
theorem WordBits.wrFF07 (v : Byte) : WordBits.Statement (.wrFF07 v) := rfl
theorem WordBits.wrFF08 (v : Byte) : WordBits.Statement (.wrFF08 v) := rfl
theorem WordBits.wrFF09 (v : Byte) : WordBits.Statement (.wrFF09 v) := rfl
theorem WordBits.wrFF0A (v : Byte) : WordBits.Statement (.wrFF0A v) := rfl
theorem WordBits.wrFF0B (v : Byte) : WordBits.Statement (.wrFF0B v) := rfl
theorem WordBits.wrFF0C (v : Byte) : WordBits.Statement (.wrFF0C v) := rfl
theorem WordBits.wrFF0D (v : Byte) : WordBits.Statement (.wrFF0D v) := rfl
theorem WordBits.wrFF0E (v : Byte) : WordBits.Statement (.wrFF0E v) := rfl
theorem WordBits.wrFF0F (v : Byte) : WordBits.Statement (.wrFF0F v) := rfl
theorem WordBits.wrFF10 (v : Byte) : WordBits.Statement (.wrFF10 v) := rfl
theorem WordBits.wrFF11 (v : Byte) : WordBits.Statement (.wrFF11 v) := rfl
theorem WordBits.wrFF12 (v : Byte) : WordBits.Statement (.wrFF12 v) := rfl
theorem WordBits.wrFF13 (v : Byte) : WordBits.Statement (.wrFF13 v) := rfl
theorem WordBits.wrFF14 (v : Byte) : WordBits.Statement (.wrFF14 v) := rfl
theorem WordBits.wrFF15 (v : Byte) : WordBits.Statement (.wrFF15 v) := rfl
theorem WordBits.wrFF16 (v : Byte) : WordBits.Statement (.wrFF16 v) := rfl
theorem WordBits.wrFF17 (v : Byte) : WordBits.Statement (.wrFF17 v) := rfl
theorem WordBits.wrFF18 (v : Byte) : WordBits.Statement (.wrFF18 v) := rfl
theorem WordBits.wrFF19 (v : Byte) : WordBits.Statement (.wrFF19 v) := rfl
theorem WordBits.wrFF1A (v : Byte) : WordBits.Statement (.wrFF1A v) := rfl
theorem WordBits.wrFF1B (v : Byte) : WordBits.Statement (.wrFF1B v) := rfl
theorem WordBits.wrFF1C (v : Byte) : WordBits.Statement (.wrFF1C v) := rfl
theorem WordBits.wrFF1D (v : Byte) : WordBits.Statement (.wrFF1D v) := rfl
theorem WordBits.wrFF1E (v : Byte) : WordBits.Statement (.wrFF1E v) := rfl
theorem WordBits.wrFF1F (v : Byte) : WordBits.Statement (.wrFF1F v) := rfl
theorem WordBits.wrFF3E (v : Byte) : WordBits.Statement (.wrFF3E v) := rfl
theorem WordBits.wrFF3F (v : Byte) : WordBits.Statement (.wrFF3F v) := rfl
theorem WordBits.wrFDDx (x : BitVec 4) (v : Byte) : WordBits.Statement (.wrFDDx x v) := rfl
theorem WordBits.ioRdFD (lo : Byte) : WordBits.Statement (.ioRdFD lo) := rfl
theorem WordBits.ioRdFE (lo : Byte) : WordBits.Statement (.ioRdFE lo) := rfl
theorem WordBits.ioWrFD (lo : Byte) (v : Byte) : WordBits.Statement (.ioWrFD lo v) := rfl
theorem WordBits.ioWrFE (lo : Byte) (v : Byte) : WordBits.Statement (.ioWrFE lo v) := rfl
theorem WordBits.memRd (a : Addr) : WordBits.Statement (.memRd a) := rfl
theorem WordBits.memWr (a : Addr) (v : Byte) : WordBits.Statement (.memWr a v) := rfl
theorem WordBits.hostConfigureRAM (sizeKiB : Int) (fillPattern : Nat) : WordBits.Statement (.hostConfigureRAM sizeKiB fillPattern) := rfl
theorem WordBits.hostLoadROM (bank offset length : Int) (bytes : Option (List Byte)) : WordBits.Statement (.hostLoadROM bank offset length bytes) := rfl
theorem WordBits.hostResolve (kind : AccessKind) (a : Addr) : WordBits.Statement (.hostResolve kind a) := rfl
theorem WordBits.hostGetSegmentKind (slot : Int) : WordBits.Statement (.hostGetSegmentKind slot) := rfl
theorem WordBits.hostRun (ticks : Int) : WordBits.Statement (.hostRun ticks) := rfl
theorem WordBits.hostReset (cold : Bool) : WordBits.Statement (.hostReset cold) := rfl
theorem WordBits.hostSaveState : WordBits.Statement (.hostSaveState) := rfl
theorem WordBits.hostLoadState (snapshot : Nat) : WordBits.Statement (.hostLoadState snapshot) := rfl
theorem WordBits.hostRegisterCallback (callback userData : Nat) : WordBits.Statement (.hostRegisterCallback callback userData) := rfl
theorem WordBits.hostWriteRegister (offset : BitVec 5) (v : Byte) : WordBits.Statement (.hostWriteRegister offset v) := rfl
theorem WordBits.hostReadRegister (offset : BitVec 5) : WordBits.Statement (.hostReadRegister offset) := rfl
theorem WordBits.hostReservedB : WordBits.Statement (.hostReservedB) := rfl
theorem WordBits.hostReservedC : WordBits.Statement (.hostReservedC) := rfl
theorem WordBits.hostReservedD : WordBits.Statement (.hostReservedD) := rfl
theorem WordBits.hostReservedE : WordBits.Statement (.hostReservedE) := rfl
theorem WordBits.hostReservedF : WordBits.Statement (.hostReservedF) := rfl
theorem WordBits.stepPhaseEven : WordBits.Statement (.stepPhaseEven) := rfl
theorem WordBits.stepPhaseOdd : WordBits.Statement (.stepPhaseOdd) := rfl
theorem WordBits.stepSoundTick : WordBits.Statement (.stepSoundTick) := rfl
theorem WordBits.stepDacForce : WordBits.Statement (.stepDacForce) := rfl
theorem WordBits.evLoadHpos : WordBits.Statement (.evLoadHpos) := rfl
theorem WordBits.evLoadCposReload : WordBits.Statement (.evLoadCposReload) := rfl
theorem WordBits.evLoadVsub : WordBits.Statement (.evLoadVsub) := rfl
theorem WordBits.evIncVideoLine : WordBits.Statement (.evIncVideoLine) := rfl
theorem WordBits.evUpdateVsub : WordBits.Statement (.evUpdateVsub) := rfl
theorem WordBits.evSelectRenderer : WordBits.Statement (.evSelectRenderer) := rfl
theorem WordBits.evStopDma : WordBits.Statement (.evStopDma) := rfl
theorem WordBits.evReserved7 : WordBits.Statement (.evReserved7) := rfl
theorem WordBits.evReserved8 : WordBits.Statement (.evReserved8) := rfl
theorem WordBits.evReserved9 : WordBits.Statement (.evReserved9) := rfl
theorem WordBits.evReserved10 : WordBits.Statement (.evReserved10) := rfl
theorem WordBits.evReserved11 : WordBits.Statement (.evReserved11) := rfl
theorem WordBits.evReserved12 : WordBits.Statement (.evReserved12) := rfl
theorem WordBits.evReserved13 : WordBits.Statement (.evReserved13) := rfl
theorem WordBits.evReserved14 : WordBits.Statement (.evReserved14) := rfl
theorem WordBits.evReserved15 : WordBits.Statement (.evReserved15) := rfl
theorem WordBits.evReserved16 : WordBits.Statement (.evReserved16) := rfl
theorem WordBits.evReserved17 : WordBits.Statement (.evReserved17) := rfl
theorem WordBits.evReserved18 : WordBits.Statement (.evReserved18) := rfl
theorem WordBits.evReserved19 : WordBits.Statement (.evReserved19) := rfl
theorem WordBits.evReserved20 : WordBits.Statement (.evReserved20) := rfl
theorem WordBits.evReserved21 : WordBits.Statement (.evReserved21) := rfl
theorem WordBits.evReserved22 : WordBits.Statement (.evReserved22) := rfl
theorem WordBits.evReserved23 : WordBits.Statement (.evReserved23) := rfl
theorem WordBits.evReserved24 : WordBits.Statement (.evReserved24) := rfl
theorem WordBits.evReserved25 : WordBits.Statement (.evReserved25) := rfl
theorem WordBits.evReserved26 : WordBits.Statement (.evReserved26) := rfl
theorem WordBits.evReserved27 : WordBits.Statement (.evReserved27) := rfl
theorem WordBits.evReserved28 : WordBits.Statement (.evReserved28) := rfl
theorem WordBits.evReserved29 : WordBits.Statement (.evReserved29) := rfl
theorem WordBits.evReserved30 : WordBits.Statement (.evReserved30) := rfl
theorem WordBits.evReserved31 : WordBits.Statement (.evReserved31) := rfl
theorem WordBits.renderText : WordBits.Statement (.renderText) := rfl
theorem WordBits.renderMcText : WordBits.Statement (.renderMcText) := rfl
theorem WordBits.renderHiresBmp : WordBits.Statement (.renderHiresBmp) := rfl
theorem WordBits.renderMcBmp : WordBits.Statement (.renderMcBmp) := rfl
theorem WordBits.renderEcmText : WordBits.Statement (.renderEcmText) := rfl
theorem WordBits.renderInvalid101 : WordBits.Statement (.renderInvalid101) := rfl
theorem WordBits.renderInvalid110 : WordBits.Statement (.renderInvalid110) := rfl
theorem WordBits.renderInvalid111 : WordBits.Statement (.renderInvalid111) := rfl
theorem WordBits.renderBlank (border : Bool) (mode : BitVec 3) : WordBits.Statement (.renderBlank border mode) := by
  simp only [WordBits.Statement]; revert border mode; decide
theorem WordBits.renderBorder (mode : BitVec 3) : WordBits.Statement (.renderBorder mode) := by
  simp only [WordBits.Statement]; revert mode; decide

end Sys2Proof.Laws
end

