-- ==== Sys2Proof/Tests/Slice0.lean ====
section
/-! SUPPORT. Tests.Slice0: the WellFormed smoke, the words of every constructor written out from 30_encoding.md, small
vectors of 95_test_vectors.md, and a witness for every statement that has hypotheses. -/

set_option Elab.async false

namespace Sys2Proof.Tests

open Sys2Proof Sys2Proof.Machine

/-! ## WellFormed: what each check refuses -/

theorem test_wf_memRd_refuses_earlier_rows :
    [Instr.memRd 0xFEFF, .memRd 0xFF00, .memRd 0xFF1F, .memRd 0xFF20, .memRd 0xFF3E, .memRd 0xFD00, .memRd 0xFCFF].map
      Instr.wellFormed = [false, false, false, true, true, false, true] := by decide

theorem test_wf_memWr_refuses_earlier_rows :
    [Instr.memWr 0xFF00 0, .memWr 0xFF1F 0, .memWr 0xFF3E 0, .memWr 0xFF3F 0, .memWr 0xFDD0 0, .memWr 0xFE00 0,
      .memWr 0xFF40 0, .memWr 0x0000 0].map Instr.wellFormed =
      [false, false, false, false, false, false, true, true] := by decide

theorem test_wf_ioWrFD_refuses_the_bank_latch :
    [Instr.ioWrFD 0xCF 0, .ioWrFD 0xD0 0, .ioWrFD 0xDF 0, .ioWrFD 0xE0 0].map Instr.wellFormed =
      [true, false, false, true] := by decide

theorem test_wf_signed_operands_fit :
    [Instr.hostRun 0x7FFFFFFF, .hostRun 0x80000000, .hostRun (-0x80000000), .hostRun (-0x80000001),
      .hostGetSegmentKind 0x80000000, .hostConfigureRAM 0x80000000 0, .hostLoadROM 0x80000000 0 0 none,
      .hostLoadROM 0 0x80000000 0 none, .hostLoadROM 0 0 0x80000000 none].map Instr.wellFormed =
      [true, false, true, false, false, false, false, false, false] := by decide

theorem test_wf_unsigned_operands_fit :
    [Instr.hostConfigureRAM 0 0xFFFFFFFF, .hostConfigureRAM 0 0x100000000, .hostLoadState 0x100000000,
      .hostRegisterCallback 0x100000000 0, .hostRegisterCallback 0 0x100000000].map Instr.wellFormed =
      [true, false, false, false, false] := by decide

/-! ## Decoding: a word of every constructor, bit 16 of a BUS word its direction, the data byte of a write above it -/

theorem test_decode_register_reads :
    [0x1FF00, 0x1FF01, 0x1FF02, 0x1FF03, 0x1FF04, 0x1FF05, 0x1FF06, 0x1FF07,
      0x1FF08, 0x1FF09, 0x1FF0A, 0x1FF0B, 0x1FF0C, 0x1FF0D, 0x1FF0E, 0x1FF0F,
      0x1FF10, 0x1FF11, 0x1FF12, 0x1FF13, 0x1FF14, 0x1FF15, 0x1FF16, 0x1FF17,
      0x1FF18, 0x1FF19, 0x1FF1A, 0x1FF1B, 0x1FF1C, 0x1FF1D, 0x1FF1E, 0x1FF1F].map (decodeTableWord 32) =
      [some .rdFF00, some .rdFF01, some .rdFF02, some .rdFF03,
        some .rdFF04, some .rdFF05, some .rdFF06, some .rdFF07,
        some .rdFF08, some .rdFF09, some .rdFF0A, some .rdFF0B,
        some .rdFF0C, some .rdFF0D, some .rdFF0E, some .rdFF0F,
        some .rdFF10, some .rdFF11, some .rdFF12, some .rdFF13,
        some .rdFF14, some .rdFF15, some .rdFF16, some .rdFF17,
        some .rdFF18, some .rdFF19, some .rdFF1A, some .rdFF1B,
        some .rdFF1C, some .rdFF1D, some .rdFF1E, some .rdFF1F] := by decide +kernel

theorem test_decode_register_writes :
    [0xA000FF00, 0xA100FF01, 0xA200FF02, 0xA300FF03, 0xA400FF04, 0xA500FF05, 0xA600FF06, 0xA700FF07,
      0xA800FF08, 0xA900FF09, 0xAA00FF0A, 0xAB00FF0B, 0xAC00FF0C, 0xAD00FF0D, 0xAE00FF0E, 0xAF00FF0F,
      0xB000FF10, 0xB100FF11, 0xB200FF12, 0xB300FF13, 0xB400FF14, 0xB500FF15, 0xB600FF16, 0xB700FF17,
      0xB800FF18, 0xB900FF19, 0xBA00FF1A, 0xBB00FF1B, 0xBC00FF1C, 0xBD00FF1D, 0xBE00FF1E, 0xBF00FF1F].map (decodeTableWord 32) =
      [some (.wrFF00 0xA0), some (.wrFF01 0xA1), some (.wrFF02 0xA2), some (.wrFF03 0xA3),
        some (.wrFF04 0xA4), some (.wrFF05 0xA5), some (.wrFF06 0xA6), some (.wrFF07 0xA7),
        some (.wrFF08 0xA8), some (.wrFF09 0xA9), some (.wrFF0A 0xAA), some (.wrFF0B 0xAB),
        some (.wrFF0C 0xAC), some (.wrFF0D 0xAD), some (.wrFF0E 0xAE), some (.wrFF0F 0xAF),
        some (.wrFF10 0xB0), some (.wrFF11 0xB1), some (.wrFF12 0xB2), some (.wrFF13 0xB3),
        some (.wrFF14 0xB4), some (.wrFF15 0xB5), some (.wrFF16 0xB6), some (.wrFF17 0xB7),
        some (.wrFF18 0xB8), some (.wrFF19 0xB9), some (.wrFF1A 0xBA), some (.wrFF1B 0xBB),
        some (.wrFF1C 0xBC), some (.wrFF1D 0xBD), some (.wrFF1E 0xBE), some (.wrFF1F 0xBF)] := by decide +kernel

theorem test_decode_latches_io_and_memory :
    [0x5A00FF3E, 0x5A00FF3F, 0x5A00FDDB, 0x1FDDB, 0x1FEFF, 0x5A00FDCF, 0x5A00FE12, 0x1FF3E,
      0x1C000, 0x5A004000, 0x5A00FF20].map (decodeTableWord 32) =
      [some (.wrFF3E 0x5A), some (.wrFF3F 0x5A), some (.wrFDDx 0xB 0x5A), some (.ioRdFD 0xDB),
        some (.ioRdFE 0xFF), some (.ioWrFD 0xCF 0x5A), some (.ioWrFE 0x12 0x5A), some (.memRd 0xFF3E),
        some (.memRd 0xC000), some (.memWr 0x4000 0x5A), some (.memWr 0xFF20 0x5A)] := by decide +kernel

/-- The operand bytes are the model's (log 15): signed and unsigned 32-bit operands low byte first, an address low byte
first, tag 1 and a count before loadROM's bytes. -/
theorem test_decode_host_calls_with_operands :
    decode .host [0x00, 0xFB, 0xFF, 0xFF, 0xFF, 0x07, 0x01, 0x00, 0x00] = .ok (.hostConfigureRAM (-5) 0x107, []) ∧
    decode .host [0x01, 9, 0, 0, 0, 0xFF, 0x3F, 0, 0, 2, 0, 0, 0, 1, 2, 0, 0, 0, 0xAA, 0xBB] =
      .ok (.hostLoadROM 9 16383 2 (some [0xAA, 0xBB]), []) ∧
    decode .host [0x01, 1, 0, 0, 0, 0, 0, 0, 0, 0, 0, 0, 0, 0] = .ok (.hostLoadROM 1 0 0 none, []) ∧
    decode .host [0x02, 0x03, 0x34, 0x12] = .ok (.hostResolve .chipBitmapRead 0x1234, []) ∧
    decode .host [0x03, 0xFF, 0xFF, 0xFF, 0xFF] = .ok (.hostGetSegmentKind (-1), []) ∧
    decode .host [0x04, 0x20, 0x4E, 0x00, 0x00] = .ok (.hostRun 20000, []) ∧
    decode .host [0x05, 0x01] = .ok (.hostReset true, []) ∧ decode .host [0x05, 0x00] = .ok (.hostReset false, []) :=
  ⟨rfl, rfl, rfl, rfl, rfl, rfl, rfl, rfl⟩

theorem test_decode_host_calls_and_reserved_selectors :
    decode .host [0x06] = .ok (.hostSaveState, []) ∧ decode .host [0x07, 2, 0, 0, 0] = .ok (.hostLoadState 2, []) ∧
    decode .host [0x08, 1, 0, 0, 0, 2, 0, 0, 0] = .ok (.hostRegisterCallback 1 2, []) ∧
    decode .host [0x09, 0x15, 0x33] = .ok (.hostWriteRegister 0x15 0x33, []) ∧
    decode .host [0x0A, 0x15] = .ok (.hostReadRegister 0x15, []) ∧
    decode .host [0x0B] = .ok (.hostReservedB, []) ∧ decode .host [0x0C] = .ok (.hostReservedC, []) ∧
    decode .host [0x0D] = .ok (.hostReservedD, []) ∧ decode .host [0x0E] = .ok (.hostReservedE, []) ∧
    decode .host [0x0F] = .ok (.hostReservedF, []) := ⟨rfl, rfl, rfl, rfl, rfl, rfl, rfl, rfl, rfl, rfl⟩

theorem test_decode_steps :
    decode .step [0] = .ok (.stepPhaseEven, []) ∧ decode .step [1] = .ok (.stepPhaseOdd, []) ∧
    decode .step [2] = .ok (.stepSoundTick, []) ∧ decode .step [3] = .ok (.stepDacForce, []) := ⟨rfl, rfl, rfl, rfl⟩

theorem test_decode_events :
    (List.range 32).map (decodeTableWord 5) =
      [some .evLoadHpos, some .evLoadCposReload, some .evLoadVsub, some .evIncVideoLine, some .evUpdateVsub,
        some .evSelectRenderer, some .evStopDma, some .evReserved7, some .evReserved8, some .evReserved9,
        some .evReserved10, some .evReserved11, some .evReserved12, some .evReserved13, some .evReserved14,
        some .evReserved15, some .evReserved16, some .evReserved17, some .evReserved18, some .evReserved19,
        some .evReserved20, some .evReserved21, some .evReserved22, some .evReserved23, some .evReserved24,
        some .evReserved25, some .evReserved26, some .evReserved27, some .evReserved28, some .evReserved29,
        some .evReserved30, some .evReserved31] := by decide +kernel

theorem test_decode_renderers :
    decode .render [0b00000] = .ok (.renderText, []) ∧ decode .render [0b00001] = .ok (.renderMcText, []) ∧
    decode .render [0b00010] = .ok (.renderHiresBmp, []) ∧ decode .render [0b00011] = .ok (.renderMcBmp, []) ∧
    decode .render [0b00100] = .ok (.renderEcmText, []) ∧ decode .render [0b00101] = .ok (.renderInvalid101, []) ∧
    decode .render [0b00110] = .ok (.renderInvalid110, []) ∧ decode .render [0b00111] = .ok (.renderInvalid111, []) ∧
    decode .render [0b01000] = .ok (.renderBorder 0, []) ∧ decode .render [0b01111] = .ok (.renderBorder 7, []) ∧
    decode .render [0b10000] = .ok (.renderBlank false 0, []) ∧ decode .render [0b11111] = .ok (.renderBlank true 7, []) :=
  ⟨rfl, rfl, rfl, rfl, rfl, rfl, rfl, rfl, rfl, rfl, rfl, rfl⟩

/-- Words wider than their format and operands cut short are refused by name. -/
theorem test_decode_refuses :
    decode .bus [0, 0, 2] = .error (.wordTooWide .bus) ∧ decode .bus [0, 0x40, 0] = .error .truncated ∧
    decode .host [0x10] = .error (.wordTooWide .host) ∧ decode .step [4] = .error (.wordTooWide .step) ∧
    decode .event [32] = .error (.wordTooWide .event) ∧ decode .render [32] = .error (.wordTooWide .render) ∧
    decode .host [0x01, 0, 0, 0, 0, 0, 0, 0, 0, 0, 0, 0, 0, 2] = .error .badTag := ⟨rfl, rfl, rfl, rfl, rfl, rfl, rfl⟩
/-! ## Vectors of 95_test_vectors.md: one operation, or a write and its read -/

/-- The operations, one after another. -/
def runOps : List Instr → State → Option State
  | [], s => some s
  | i :: rest, s =>
    match exec i s with
    | .next t => runOps rest t
    | .fault _ => none
    | .refused _ => none

/-- One observation of the state after some operations. -/
def see {α : Type} (f : State → α) (l : List Instr) (s : State) : Option α := (runOps l s).map f

/-- The start state Z of section 2: 64 KiB of RAM, reset. -/
def stateZ : State := { State.reset with chip.mem := configuredMem Params.default 64 0 State.reset.chip.mem }

/-- Z with some registers set. -/
def zRegs (l : List (Fin 32 × Byte)) : State :=
  { stateZ with chip := l.foldl (fun c e => c.setReg e.1 e.2) stateZ.chip }

/-- What the last read returned: the bus value it left. -/
def busOf (s : State) : Byte := s.chip.lat.busValue

/-- V-MEM-1, V-MEM-2. -/
theorem test_round_and_ramset :
    [-5, 0, 15, 16, 31, 32, 63, 64, 100, 255, 256, 1023, 1024, 5000].map roundRam =
      [16, 16, 16, 16, 16, 32, 32, 64, 64, 64, 256, 256, 1024, 1024] ∧
    [16, 32, 64, 256, 1024].map ramSetBase = [0xFF, 0xFE, 0xFC, 0xF0, 0xC0] := by decide +kernel

/-- V-MEM-3: a kept segment is not refilled; V-MEM-4. -/
theorem test_configureRAM_keeps_the_shared_segments :
    see (fun s => (s.chip.mem.read 0xFE 0, s.chip.mem.isRam 0xFC, s.chip.mem.isRam 0xFD))
      [.memWr 0x4000 0x5A, .hostConfigureRAM 32 0] stateZ = some (some 0x5A, false, false) ∧
    see (fun s => s.chip.mem) [.hostConfigureRAM 64 0] stateZ = some stateZ.chip.mem := by decide +kernel

/-- V-MEM-5, V-ERR-1. -/
theorem test_configureRAM_fails_whole :
    see (fun s => (s.host.result, s.chip.mem.ramSizeKiB, s.chip.mem.isRam 0xFC))
      [.hostConfigureRAM 32 0, .hostConfigureRAM 64 0] { stateZ with host.allocDraws := [false] } =
        some (.error .configurationError, some 32, false) ∧ HostError.configurationError.code = 1 := by decide +kernel

/-- V-MEM-6: bank and offset are masked, offsets wrap. -/
theorem test_loadROM_wraps :
    see (fun s => (s.chip.mem.read 1 0x3FFF, s.chip.mem.read 1 0, s.chip.mem.isRom 1))
      [.hostLoadROM 9 16383 2 (some [0xAA, 0xBB])] stateZ = some (some 0xAA, some 0xBB, true) ∧
    see (fun s => (s.chip.mem.read 7 0, s.chip.mem.read 2 0x3FFF)) [.hostLoadROM (-1) 0 1 (some [0xCC]),
      .hostLoadROM 2 (-1) 1 (some [0xDD])] stateZ = some (some 0xCC, some 0xDD) := by decide +kernel

/-- V-MEM-6: fewer bytes than asked, and NULL. -/
theorem test_loadROM_short_and_null :
    see (fun s => (s.chip.mem.cells.length, s.chip.mem.read 4 1)) [.hostLoadROM 4 0 10 (some [0x11, 0x22])] stateZ =
      some (2, some 0x22) ∧
    see (fun s => s.chip.mem.read 1 0) [.hostLoadROM 1 0 1 (some [0x4C]), .hostLoadROM 1 0 0 none] stateZ =
      some none := by decide +kernel

/-- V-MEM-7. -/
theorem test_resolve :
    (runOps [.hostLoadROM 0 0 4 (some [0xA9, 0x00, 0x8D, 0x20]), .hostLoadROM 1 0 1 (some [0x4C])] stateZ).map (fun s =>
      [resolve .cpuRead 0x0FFF s.chip, resolve .cpuRead 0x4000 s.chip, resolve .cpuRead 0x8000 s.chip,
        resolve .cpuRead 0xFC00 s.chip, resolve .cpuRead 0xFFFF s.chip, resolve .cpuWrite 0x8000 s.chip,
        resolve .chipDmaRead 0xC000 s.chip, resolve .chipBitmapRead 0xD000 (s.chip.setReg 0x12 4),
        resolve .chipBitmapRead 0xD000 s.chip]) =
      some [some (0xFF, 0x0FFF), some (0xFE, 0), some (0, 0), some (1, 0x3C00), some (1, 0x3FFF), some (0xFD, 0),
        some (0xFC, 0), some (1, 0x1000), some (0xFC, 0x1000)] := by decide +kernel

theorem test_resolve_call :
    see (fun s => s.host.result) [.wrFDDx 6 0, .hostResolve .cpuRead 0x8000] stateZ = some .openBus ∧
    see (fun s => s.host.result) [.wrFF3F 0, .hostResolve .cpuRead 0x8000] stateZ = some (.loc 0xFD 0) := by
  decide +kernel

/-- V-MEM-8. -/
theorem test_memoryPage :
    [0x0FFF, 0x1000, 0x3FFF, 0x4000, 0x7FFF, 0x8000, 0xBFFF, 0xC000, 0xFC00, 0xFF00].map (fun a => memoryPage a stateZ.chip) =
      [some 0xFF, some 0xFF, some 0xFF, some 0xFE, some 0xFE, some 0, some 0, some 1, some 1, some 1] := by decide +kernel

/-- V-MEM-9. -/
theorem test_memory_and_open_bus :
    see busOf [.memWr 0x4000 0x5A, .memRd 0xC000] stateZ = some 0x5A ∧
    see (fun s => (busOf s, s.chip.mem.read 0xFC 0)) [.memWr 0xC000 0x33, .memRd 0xC000] stateZ =
      some (0x33, some 0x33) := by decide +kernel

/-- V-MEM-10. -/
theorem test_getSegmentKind :
    [255, -1, 256].map (fun n => segmentKind n stateZ.chip.mem) = [.ram, .ram, .none] ∧
    see (fun s => s.host.result) [.hostLoadROM 0 0 0 (some []), .hostGetSegmentKind 0] stateZ = some (.kind .rom) := by
  decide +kernel

/-- V-MEM-11. -/
theorem test_bank_latches :
    see (fun s => (busOf s, s.chip.mem.cells, s.chip.lat.cpuRomOn)) [.wrFF3F 0, .wrFF3E 0x12] stateZ =
      some (0x12, [], true) ∧
    see (fun s => (s.chip.lat.romBankLo, s.chip.lat.romBankHi, s.chip.mem.cells)) [.wrFDDx 0xB 0x34] stateZ =
      some (3, 2, []) := by decide +kernel

/-- V-REG-29: the external I/O range is by default the memory of the key. -/
theorem test_io_range :
    see busOf [.memWr 0x4000 0x5A, .ioRdFD 0x30] stateZ = some 0x5A ∧
    see (fun s => (busOf s, s.chip.mem.read 0xFC 0x3E00)) [.wrFF3F 0, .ioWrFE 0 0x77, .ioRdFE 0] stateZ =
      some (0x77, some 0x77) ∧
    see (fun s => s.chip.mem.read 0xFC 0x3D10) [.ioWrFD 0x10 0x66] stateZ = some (some 0x66) := by decide +kernel

/-- V-REG-1, V-REG-2 and the always-set bits of R502. -/
theorem test_stored_reads :
    [Instr.rdFF06, .rdFF07, .rdFF0A, .rdFF0B, .rdFF0C, .rdFF0D, .rdFF0E, .rdFF0F, .rdFF10, .rdFF11, .rdFF12, .rdFF14, .rdFF15,
      .rdFF16, .rdFF17, .rdFF18, .rdFF19].map (fun i => see busOf [i] stateZ) =
      [0, 0, 0xA0, 0, 0xFC, 0, 0, 0, 0xFC, 0, 0xC0, 0x07, 0x80, 0x80, 0x80, 0x80, 0x80].map some := by decide +kernel

theorem test_stored_writes :
    [[Instr.wrFF06 0x1B, .rdFF06], [.wrFF07 0x40, .rdFF07], [.wrFF0A 0xFF, .rdFF0A], [.wrFF0B 0x71, .rdFF0B],
      [.wrFF0C 2, .rdFF0C], [.wrFF0D 0x72, .rdFF0D], [.wrFF0E 0x73, .rdFF0E], [.wrFF0F 0x74, .rdFF0F], [.wrFF10 1, .rdFF10],
      [.wrFF11 0x75, .rdFF11], [.wrFF12 5, .rdFF12], [.wrFF13 0xFF, .rdFF13], [.wrFF14 0x70, .rdFF14], [.wrFF15 0x71, .rdFF15],
      [.wrFF16 0x72, .rdFF16], [.wrFF17 0x73, .rdFF17], [.wrFF18 0x74, .rdFF18], [.wrFF19 0x75, .rdFF19]].map
      (fun l => see busOf l stateZ) =
      [0x1B, 0x40, 0xFF, 0x71, 0xFE, 0x72, 0x73, 0x74, 0xFD, 0x75, 0xC5, 0xFF, 0x77, 0xF1, 0xF2, 0xF3, 0xF4, 0xF5].map
        some := by decide +kernel

/-- V-REG-4 to V-REG-7. -/
theorem test_interrupt_status :
    see busOf [.rdFF09] { zRegs [(0x0A, 8)] with chip.irq.stat := 8 } = some 0xA9 ∧
    see busOf [.wrFF09 8, .rdFF09] { zRegs [(0x0A, 8)] with chip.irq.stat := 8 } = some 0x21 ∧
    see busOf [.rdFF09] { stateZ with chip.irq.stat := 8 } = some 0x29 ∧
    see (fun s => s.chip.irq.stat) [.wrFF09 0] { stateZ with chip.irq.stat := 0x5E } = some 0x5E := by decide +kernel

/-- V-REG-8 to V-REG-10. -/
theorem test_rom_status :
    see busOf [.rdFF13] stateZ = some 1 ∧ see busOf [.wrFF3F 0, .rdFF13] stateZ = some 0 ∧
    see busOf [.wrFF13 0xFF, .wrFF3F 0, .rdFF13] stateZ = some 0xFE := by decide +kernel

/-- V-REG-11 to V-REG-14. -/
theorem test_live_reads :
    see busOf [.rdFF1E] { stateZ with chip.seq.column := 57 } = some 0x72 ∧
    see busOf [.rdFF1E] { stateZ with chip.seq.column := 57, chip.rf.pend1E := some 0x0F } = some 0x02 ∧
    see busOf [.rdFF1F] { stateZ with chip.seq.flashCnt := 5, chip.seq.charSub := 3 } = some 0xAB ∧
    see busOf [.rdFF1C] { stateZ with chip.seq.videoLine := 0x123 } = some 0xFF ∧
    see busOf [.rdFF1D] { stateZ with chip.seq.videoLine := 0x123 } = some 0x23 := by decide +kernel

/-- V-REG-15, V-REG-16. -/
theorem test_line_writes :
    see (fun s => s.chip.seq.videoLine) [.wrFF1D 0x40] stateZ = some 0x040 ∧
    see (fun s => s.chip.seq.videoLine) [.wrFF1C 1] { stateZ with chip.seq.videoLine := 0x0FF } = some 0x1FF := by
  decide +kernel

/-- V-REG-17 to V-REG-20. -/
theorem test_timer_registers :
    see (fun s => (s.chip.tmr.tmr2, s.chip.tmr.run2)) [.wrFF02 0x34] { stateZ with chip.tmr.tmr2 := 0x1200, chip.tmr.run2 := true } =
      some (0x1234, false) ∧
    see (fun s => (s.chip.tmr.tmr3, s.chip.tmr.run3)) [.wrFF04 0x34, .wrFF05 0x56] stateZ = some (0x5634, true) ∧
    see (fun s => (s.chip.tmr.latch1, s.chip.tmr.tmr1, s.chip.tmr.run1)) [.wrFF00 0x10, .wrFF01 0x27] stateZ =
      some (0x2710, 0x2710, true) ∧
    [Instr.rdFF00, .rdFF01, .rdFF02, .rdFF03, .rdFF04, .rdFF05].map (fun i => see busOf [i]
      { stateZ with chip.tmr := ⟨0x270B, 0x1234, 0x5678, 0x2710, false, false, false⟩ }) =
      [0x0B, 0x27, 0x34, 0x12, 0x78, 0x56].map some ∧
    see (fun s => s.chip.tmr.run2) [.wrFF03 0x56] stateZ = some true := by decide +kernel

/-- V-REG-21 to V-REG-24: marks and the standard. -/
theorem test_mode_writes :
    see (fun s => (s.chip.rf.regs[6], s.chip.refused, s.chip.rf.evOdd)) [.wrFF06 0x80] stateZ = some (0x80, true, 0x20) ∧
    see (fun s => s.chip.refused) [.wrFF07 0x20] stateZ = some true ∧
    see (fun s => (s.chip.seq.ntsc, s.chip.trace)) [.wrFF07 0x40, .wrFF07 0x40] stateZ =
      some (true, [.cpuWrite 0xFF07 0x40, .ntsc true, .cpuWrite 0xFF07 0x40]) := by decide +kernel

/-- V-REG-25, V-REG-26, V-SND-1. -/
theorem test_reload_values :
    see (fun s => (s.chip.snd.ch1.reload, s.chip.snd.ch1.cnt)) [.wrFF12 3, .wrFF0E 0] stateZ = some (0x0FF, 0) ∧
    see (fun s => s.chip.snd.ch2.reload) [.wrFF10 0xFF, .wrFF0F 0xFF] stateZ = some 0 ∧
    [0, 0x3FD, 0x3FE, 0x3FF, 0x300].map Params.default.reloadOf = [0x3FF, 2, 1, 0, 0xFF] := by decide +kernel

/-- V-REG-28: the keyboard read is a free value of the latch; V-REG-30. -/
theorem test_keyboard_and_host_registers :
    see (fun s => (s.chip.kbdLatch, s.chip.draws)) [.wrFF08 0x7F, .rdFF08] stateZ = some (0x7F, 1) ∧
    see (fun s => (s.host.result, busOf s)) [.hostWriteRegister 0x15 0x33, .hostReadRegister 0x15] stateZ =
      some (.byte 0xB3, 0) := by decide +kernel

/-- V-EVT-1, V-EVT-3 to V-EVT-5: the horizontal position. -/
theorem test_hpos :
    see (fun s => (s.chip.rf.pend1E, s.chip.rf.evOdd)) [.wrFF1E 0x40] stateZ = some (some 0x40, 1) ∧
    see (fun s => (s.chip.seq.column, s.chip.rf.pend1E)) [.evLoadHpos]
      { stateZ with chip.rf.pend1E := some 0xE3, chip.seq.phase := .odd } = some (113, none) ∧
    see (fun s => s.chip.seq.column) [.evLoadHpos] { stateZ with chip.rf.pend1E := some 0xE3 } = some 112 ∧
    see (fun s => (s.chip.seq.column, s.chip.rf.regs[0x1E], s.chip.refused)) [.evLoadHpos]
      { stateZ with chip.rf.pend1E := some 0xE4 } = some (0, 0xE4, true) := by decide +kernel

/-- V-EVT-6, V-EVT-7, V-EVT-9. -/
theorem test_vsub_and_races :
    see busOf [.wrFF1F 0x2D, .evLoadVsub, .rdFF1F] stateZ = some 0xAD ∧
    see busOf [.wrFF1F 0x2D, .rdFF1F] { stateZ with chip.seq.charSub := 7 } = some 0x85 ∧
    see busOf [.wrFF1A 3, .rdFF1A] stateZ = some 0xFC ∧
    see busOf [.wrFF1B 0x33, .rdFF1B] (zRegs [(0x1B, 0x0F)]) = some 0x03 := by decide +kernel

/-- V-EVT-8. -/
theorem test_cpos_reload :
    see (fun s => s.chip.cposReload) [.wrFF1A 1, .wrFF1B 0x40, .evLoadCposReload] stateZ = some 0x140 := by decide +kernel

/-- V-EVT-10 to V-EVT-12: the wrap of the line. -/
theorem test_line_wraps :
    [311, 400, 511].map (fun l => see (fun s => s.chip.seq.videoLine) [.evIncVideoLine] { stateZ with chip.seq.videoLine := l }) =
      [some 0, some 401, some 0] ∧
    see (fun s => s.chip.seq.videoLine) [.evIncVideoLine] { stateZ with chip.seq.videoLine := 261, chip.seq.ntsc := true } =
      some 0 := by decide +kernel

/-- V-EVT-13 to V-EVT-18: the window and the raster compare. -/
theorem test_window_and_raster :
    see (fun s => s.chip.seq.winV) [.evIncVideoLine] { zRegs [(6, 0x18)] with chip.seq.videoLine := 3 } = some true ∧
    see (fun s => s.chip.seq.winV) [.evIncVideoLine] { zRegs [(6, 0x08)] with chip.seq.videoLine := 203, chip.seq.winV := true } =
      some false ∧
    see (fun s => s.chip.seq.winV) [.evIncVideoLine] { stateZ with chip.seq.videoLine := 199, chip.seq.winV := true } =
      some false ∧
    see (fun s => s.chip.irq.stat) [.evIncVideoLine] { zRegs [(0x0A, 1), (0x0B, 4)] with chip.seq.videoLine := 0x103 } =
      some 2 := by decide +kernel

/-- V-EVT-19 to V-EVT-22. -/
theorem test_sub_address :
    see (fun s => (s.chip.seq.charSub, s.chip.cposReload)) [.evUpdateVsub]
      { stateZ with chip.seq.winV := true, chip.seq.charSub := 7, chip.seq.charPos := 40, chip.seq.videoLine := 20 } =
      some (0, 40) ∧
    see (fun s => (s.chip.seq.charSub, s.chip.cposReload)) [.evUpdateVsub]
      { stateZ with chip.seq.winV := true, chip.seq.charSub := 7, chip.seq.charPos := 40, chip.seq.videoLine := 8 } =
      some (0, 0) ∧
    see (fun s => s.chip.seq.charSub) [.evUpdateVsub] { stateZ with chip.seq.charSub := 3 } = some 3 := by decide +kernel

/-- V-EVT-23 to V-EVT-26. -/
theorem test_select_renderer :
    [(0x60, 0x00), (0x20, 0x10), (0x40, 0x10), (0x40, 0x00), (0x00, 0x10), (0x20, 0x00)].map (fun e : Byte × Byte =>
      see (fun s => s.chip.seq.renderer) [.evSelectRenderer] (zRegs [(6, e.1), (7, e.2)])) =
      [.invalid, .mcBmp, .invalid, .ecmText, .mcText, .hiresBmp].map some := by decide +kernel

/-- V-EVT-28, V-EVT-29. -/
theorem test_stop_dma :
    see (fun s => (s.chip.seq.busMode, s.chip.trace)) [.evStopDma] { stateZ with chip.seq.busMode := .chipDma } =
      some (.cpuRun, [.setIsCPURunning true]) ∧
    see (fun s => (s.chip.seq.busMode, s.chip.trace)) [.evStopDma] { stateZ with chip.seq.busMode := .cpuHaltReq } =
      some (.cpuRun, []) := by decide +kernel

/-- V-EVT-30: the order of a dispatch is observable. -/
theorem test_dispatch_order :
    let c := dispatch .odd { (zRegs [(6, 0x18)]).chip with
      seq.videoLine := 3, seq.charSub := 7, rf.evOdd := 0x18 }
    (c.seq.videoLine, c.seq.winV, c.seq.charSub, c.rf.evOdd) = (4, true, 0, 0) := by decide +kernel

/-- V-ERR-4 and R748: reserved operations. -/
theorem test_reserved :
    [Instr.hostReservedB, .hostReservedC, .hostReservedD, .hostReservedE, .hostReservedF].map (fun i =>
      see (fun s => s.chip.refused) [i] stateZ) = List.replicate 5 (some true) ∧
    [Instr.evReserved7, .evReserved8, .evReserved9, .evReserved10, .evReserved11, .evReserved12, .evReserved13, .evReserved14,
      .evReserved15, .evReserved16, .evReserved17, .evReserved18, .evReserved19, .evReserved20, .evReserved21, .evReserved22,
      .evReserved23, .evReserved24, .evReserved25, .evReserved26, .evReserved27, .evReserved28, .evReserved29, .evReserved30,
      .evReserved31].all (fun i => see (fun s => s == stateZ) [i] stateZ == some true) = true := by decide +kernel

/-- V-CYC-1: the carry of run(). -/
theorem test_run_carry :
    [[Instr.hostRun 0], [.hostRun 1], [.hostRun 20], [.hostRun 30], [.hostRun 1, .hostRun 19], [.hostRun (-1)]].map
      (fun l => see (fun s => (s.host.result, s.tickBudget)) l stateZ) =
      [some (.ticks 0, 0), some (.ticks (-19), -19), some (.ticks 0, 0), some (.ticks (-10), -10), some (.ticks 0, 0),
        some (.error .invalidArgument, 0)] ∧
    see (fun s => s.tickBudget) [.hostRun 21] { zRegs [(7, 0x40)] with chip.seq.ntsc := true } = some (-11) := by
  decide +kernel

/-- V-CYC-3: from column 112 a cycle ends at column 0. -/
theorem test_phases_advance_the_column :
    see (fun s => (s.chip.seq.column, s.chip.seq.phase)) [.stepPhaseEven] stateZ = some (1, .odd) ∧
    see (fun s => (s.chip.seq.column, s.chip.seq.phase)) [.stepPhaseOdd] { stateZ with chip.seq.column := 113, chip.seq.phase := .odd } =
      some (0, .even) := by decide +kernel

/-- V-CYC-8. -/
theorem test_callbacks_run_in_order :
    see (fun s => s.chip.trace) [.hostRegisterCallback 1 10, .hostRegisterCallback 2 20, .stepPhaseEven] stateZ =
      some [.runRdyHigh 1, .callback 2 20 .even 0, .callback 1 10 .even 0] := by decide +kernel

/-- V-CYC-6, its first cycles: a write goes on with RDY low, a read waits, the DMA is granted. -/
theorem test_bus_steps :
    let c := { stateZ.chip with seq.busMode := .cpuHaltReq, inp.cpuScript := [.wr 0x4001 0x22, .rd 0x4001] }
    (evenBusStep c).trace = [.cpuWrite 0x4001 0x22, .runRdyLow 1] ∧
    (oddBusStep (evenBusStep c)).inp.cpuScript = [.rd 0x4001] ∧ (grantDma c).trace = [.setIsCPURunning false] := by
  decide +kernel

/-- V-VID-13. -/
theorem test_fetch_addresses :
    let at41 := fun l => { (zRegs l).chip with seq.charPos := 41, seq.charSub := 2 }
    (at41 [(0x14, 8)]).attrAddr = 0x0829 ∧ { at41 [(0x14, 8)] with seq.winV := true }.attrAddr = 0x0851 ∧
    { at41 [(0x14, 8)] with seq.winV := true, seq.charPos := 1000 }.attrAddr = 0x0810 ∧
    (at41 [(0x14, 8)]).charAddr = 0x0C29 ∧ { at41 [(0x14, 0xFF)] with seq.charPos := 0x3FF }.charAddr = 0xFFFF ∧
    (at41 [(0x13, 0xD0)]).bitmapAddr 0x81 = 0xD00A ∧ (at41 [(0x13, 0xD0), (7, 0x80)]).bitmapAddr 0x81 = 0xD40A ∧
    { at41 [(0x12, 0x10)] with seq.charSub := 3, seq.renderer := .hiresBmp }.bitmapAddr 0 = 0x414B := by decide +kernel

/-- Z with a shift register, for a renderer. -/
def zShift (l : List (Fin 32 × Byte)) (a ch b f : Byte) : State := { zRegs l with chip.vid.sr := ⟨a, ch, b, f, ⟨false, 0, 0⟩⟩ }

/-- The EVEN and the ODD record of a renderer. -/
def records (i : Instr) (s : State) : Option (List Byte) := see (fun t => t.chip.vid.outBuf) [i, i] s

/-- V-VID-1 with its variants. -/
theorem test_text_renderer :
    records .renderText (zShift [] 0x71 0 0xA5 0) = some [0x00, 0x71, 0x00, 0x71, 0x00, 0x00, 0x00, 0x71, 0x00, 0x71] ∧
    records .renderText (zShift [] 0x71 0 0xA5 2) = some [0x00, 0x00, 0x71, 0x00, 0x71, 0x00, 0x71, 0x00, 0x71, 0x00] ∧
    records .renderText { zShift [] 0x71 0 0xA5 1 with chip.seq.flashCnt := 8 } =
      some [0x00, 0x00, 0x71, 0x00, 0x71, 0x00, 0x71, 0x00, 0x71, 0x00] ∧
    records .renderText { zShift [] 0xF1 0 0xA5 0 with chip.seq.flashCnt := 8 } = some [0x01, 0x00, 0x01, 0x00] := by
  decide +kernel

/-- V-VID-2, V-VID-2h, V-VID-3. -/
theorem test_multicolour_and_extended_text :
    records .renderMcText (zShift [(0x15, 0x01), (0x16, 0x22), (0x17, 0x33)] 0x0B 0 0x1B 0) =
      some [0x00, 0x01, 0x01, 0x22, 0x22, 0x00, 0x33, 0x33, 0x03, 0x03] ∧
    records .renderMcText (zShift [(0x15, 0x01)] 0x73 0 0xA5 0) =
      some [0x00, 0x73, 0x01, 0x73, 0x01, 0x00, 0x01, 0x73, 0x01, 0x73] ∧
    records .renderEcmText (zShift [(0x15, 0x01), (0x16, 0x22), (0x17, 0x33), (0x18, 0x44)] 0x71 0xC1 0xA5 0) =
      some [0x00, 0x71, 0x44, 0x71, 0x44, 0x00, 0x44, 0x71, 0x44, 0x71] := by decide +kernel

/-- V-VID-4, V-VID-5. -/
theorem test_bitmap_renderers :
    records .renderHiresBmp (zShift [] 0x34 0x5A 0xC3 0) =
      some [0x00, 0x3A, 0x3A, 0x45, 0x45, 0x00, 0x45, 0x45, 0x3A, 0x3A] ∧
    records .renderMcBmp (zShift [(0x15, 0x01), (0x16, 0x32)] 0x34 0x5A 0x1B 0) =
      some [0x00, 0x01, 0x01, 0x45, 0x45, 0x00, 0x3A, 0x3A, 0x32, 0x32] := by decide +kernel

/-- V-VID-6: an INVALID group takes four free values. -/
theorem test_invalid_renderers :
    [rendererOf true false true, rendererOf true true false, rendererOf true true true] = List.replicate 3 .invalid ∧
    (RenderSel.mode .invalid).drawn 8 = 4 ∧ (RenderSel.mode .text).drawn 4 = 0 := by decide +kernel

/-- V-VID-7 to V-VID-12. -/
theorem test_blank_and_border :
    records (.renderBlank false 0) { stateZ with chip.seq.hBlank := true, chip.seq.hSync := true } =
      some [0x0B, 0x00, 0x0B, 0x00] ∧
    records (.renderBlank true 7) { stateZ with chip.seq.vBlank := true, chip.seq.vSync := true } =
      some [0x15, 0x00, 0x15, 0x00] ∧
    records (.renderBorder 0) (zRegs [(0x19, 0xDE)]) = some [0x21, 0x5E, 0x21, 0x5E] ∧
    renderSelection { stateZ.chip with seq.hBlank := true } = .blank ∧ renderSelection stateZ.chip = .border := by
  decide +kernel

/-- V-VID-14. -/
theorem test_shift_register_flags :
    let c := { (zRegs [(0x0D, 0x29)]).chip with seq.charPos := 41 }
    [c.srFlags 0x01, c.srFlags 0x81, (c.setReg 7 0x80).srFlags 0x81, { c with seq.charPos := 40 }.srFlags 0x01] =
      [1, 3, 1, 0] := by decide +kernel

/-- R1231: a write of RVSOFF, and of the cursor position, after the load is seen by the render step; writing the old value
back undoes it, and the next load takes the register as it is. -/
theorem test_flags_follow_the_registers :
    let c := { stateZ.chip with
      seq.charCol := 3, seq.charPos := 41, seq.winH := true, seq.winV := true
      vid.charBuf := Vector.replicate 40 0x81, vid.attrCur := Vector.replicate 40 0x71 }
    let t := loadShiftReg c
    t.flagsCurrent = true ∧ (renderStep .even t).vid.outBuf = [0x01, 0x71] ∧
    (renderStep .even (t.setReg 7 0x80)).vid.outBuf = [0x01, 0x00] ∧ c.cfg.srFlagsLaw = none ∧ c.seq.charCol.val < 40 ∧
    [t.flagsNow, (t.setReg 7 0x80).flagsNow, ((t.setReg 7 0x80).setReg 7 0).flagsNow, (t.setReg 0x0D 0x29).flagsNow,
      (loadShiftReg (t.setReg 7 0x80)).flagsNow] = [2, 0, 2, 3, 0] := by decide +kernel

/-- V-VID-15: the flush threshold, with buffers of border records. -/
theorem test_flush :
    let buf := fun n => (List.replicate n [0x21#8, 0#8]).flatten
    see (fun s => (s.chip.outPos, s.chip.trace)) [.renderBorder 0] { stateZ with chip.vid.outBuf := buf 224 } = some (450, []) ∧
    see (fun s => (s.chip.outPos, s.chip.trace)) [.renderBorder 0] { stateZ with chip.vid.outBuf := buf 225 } =
      some (0, [.video (buf 226) 452]) := by decide +kernel

/-- V-SND-2. -/
theorem test_lfsr :
    [0xFF, 0xFE, 0xFC, 0xF8, 0xF0, 0xE1, 0xC2].map (lfsrStep Params.default) = [0xFE, 0xFC, 0xF8, 0xF0, 0xE1, 0xC2, 0x85] := by
  decide +kernel

/-- V-SND-3, its first tick, and V-SND-6. -/
theorem test_sound_tick :
    see (fun s => (s.chip.trace, s.chip.snd.prevLevel, s.chip.snd.ch1.cnt, s.chip.snd.lfsr)) [.stepSoundTick]
      { zRegs [(0x11, 0x38)] with chip.snd.ch1.reload := 2, chip.snd.ch2.reload := 1 } = some ([.sample 0], 150, 2, 0xFE) ∧
    see (fun s => s.chip.trace) [.stepSoundTick] (zRegs [(0x11, 0x30)]) = some [.sample (BitVec.ofInt 16 (-30000))] := by
  decide +kernel

/-- V-SND-4: DAC mode. -/
theorem test_dac :
    see (fun s => (s.chip.snd.ch1.latch, s.chip.trace, s.chip.snd.lfsr)) [.stepDacForce, .stepSoundTick] (zRegs [(0x11, 0x98)]) =
      some (true, [.sample (BitVec.ofInt 16 (-15000))], 0xFF) := by decide +kernel

/-- V-CYC-5, V-IRQ-1, V-IRQ-2: a timer, its status bit, and the line. -/
theorem test_timers_and_line :
    (updateTimer1 { stateZ.chip with tmr := ⟨0, 0, 0, 2, true, false, false⟩ }).tmr.tmr1 = 2 ∧
    (updateTimer2 { stateZ.chip with tmr := ⟨0, 0, 0, 0, false, true, false⟩ }).irq.stat = 0x10 ∧
    (updateTimer3 { stateZ.chip with tmr := ⟨0, 0, 0, 0, false, false, true⟩ }).tmr.tmr3 = 0xFFFF ∧
    ({ (zRegs [(0x0A, 8)]).chip with irq := ⟨8, false⟩ } : Chip).interruptCheck.trace = [.interruptRequest true] ∧
    ({ (zRegs [(0x0A, 8)]).chip with irq := ⟨0, true⟩ } : Chip).interruptCheck.trace = [.interruptRequest false] := by
  decide +kernel

/-- A state that a reset has something to do in. -/
def dirtyState : State :=
  { stateZ with
    chip.lat := ⟨false, 1, 2, 0, 7⟩, chip.seq.ntsc := true, chip.rf.evEven := 5, chip.vid.outBuf := [0x21, 0]
    chip.refused := true, tickBudget := -7 }

/-- V-RST-1, V-RST-3, V-RST-4. -/
theorem test_reset :
    see (fun s => (s.chip.lat, s.chip.rf.evEven, s.chip.outPos)) [.hostReset false] dirtyState =
      some (⟨true, 0, 0, 0, 0⟩, 0, 0) ∧
    see (fun s => (s.chip.trace, s.chip.refused, s.tickBudget)) [.hostReset false] dirtyState =
      some ([.cpuReset false, .ntsc false], true, 0) := by decide +kernel

/-- V-RST-2: REFILL forgets the written bytes, KEEP holds them. -/
theorem test_cold_reset :
    see (fun s => s.chip.mem.cells) [.memWr 0x4000 0x5A, .hostReset true] stateZ = some [(0xFE * 16384, 0x5A)] ∧
    see (fun s => (s.chip.mem.cells, s.chip.mem.isRam 0xFE)) [.memWr 0x4000 0x5A, .hostReset true]
      { stateZ with chip.cfg.coldRam := .refill } = some ([], true) := by decide +kernel

/-- V-SNAP-1, V-SNAP-2, V-SNAP-3: RAM comes back, ROM is the chip's own. -/
theorem test_snapshots :
    see (fun s => (s.host.result, s.chip == stateZ.chip)) [.hostSaveState] stateZ = some (.snapshot 0, true) ∧
    see (fun s => (s.chip.mem.read 0xFE 0, s.chip.mem.read 0 0)) [.memWr 0x4000 0x5A, .hostSaveState, .memWr 0x4000 0x77,
      .hostLoadROM 0 0 1 (some [0xA9]), .hostLoadState 0] stateZ = some (some 0x5A, some 0xA9) := by decide +kernel

/-- P1, its lines as the host's queue and the CPU's script (R390, R391). -/
theorem test_program_lines :
    cpuScriptOf [.wr16 0x4000 0x1234, .nop, .rd 0x4001, .call .hostSaveState] =
      [.wr 0x4000 0x34, .wr 0x4001 0x12, .nop, .rd 0x4001] ∧
    queueOf [.nop, .cycle 3, .call (.hostReset true)] = [.cycle 3, .op (encode (.hostReset true))] := by decide +kernel

/-- Two steps. -/
def twoSteps (s : State) : Option State :=
  match step s with
  | .next t => (match step t with | .next u => some u | .fault _ => none | .refused _ => none)
  | .fault _ => none
  | .refused _ => none

/-- R391: the ticks of `CYCLE n` are those of the standard when it is called, here NTSC, although the program starts with
PAL. -/
theorem test_cycle_reads_the_standard_when_called :
    (twoSteps (stateZ.load [.call (.hostWriteRegister 0x07 0x40), .cycle 2])).map
      (fun s => (s.chip.seq.column, s.host.result)) = some (4, .ticks 0) := by decide +kernel

/-- A state change sets the elements it gives and adds its events to those in flight; a change of the bus mode is called to
the CPU (R821, R746). Only a line operation gives the reload registers and the line, which may be at or above P_LINES
(R110, R744, R538). -/
theorem test_state_change :
    let x : StateChange := { (default : StateChange) with
      cpuRomOn := true, evEven := 0x20, busMode := .chipDma, renderer := .mcBmp }
    let c := { stateZ.chip with rf.evEven := 1, rf.pend1A := some 9, seq.column := 50, seq.videoLine := 400 }
    let d := c.change x
    (d.rf.evEven, d.cposReload, d.rf.pend1A, d.lat.cpuRomOn) = (0x21, 0, some 9, true) ∧
    (d.seq.busMode, d.seq.renderer, d.seq.column, d.seq.videoLine) = (.chipDma, .mcBmp, 50, 400) ∧
    d.trace = [.setIsCPURunning false] ∧
    (d.change { x with busMode := .cpuRun }).trace = [.setIsCPURunning true, .setIsCPURunning false] ∧
    (let e := c.incrementLine ⟨401, true, 3, 0x44, x⟩
     (e.seq.videoLine, e.irq.stat, e.cposReload) = (401, 2, 0x344)) := by decide +kernel

/-- A step takes the host's next call; with none queued nothing happens. -/
theorem test_step :
    (match step (stateZ.withQueue [.op (encode (.wrFF15 0x71)), .op (encode .rdFF15)]) with
      | .next t => some (t.chip.rf.regs[0x15], t.host.queue)
      | .fault _ => none
      | .refused _ => none) = some (0x71, [.op (encode .rdFF15)]) ∧
    (match step stateZ with | .next t => t == stateZ | .fault _ => false | .refused _ => false) = true ∧
    (match step (State.reset.withFetchWord 32 0x7100FF15) with
      | .next t => t.chip.rf.regs[0x15] == 0x71
      | .fault _ => false
      | .refused _ => false) = true := by decide +kernel

/-! ## Witnesses: for every statement with hypotheses, states and operands that meet them together -/

/-- Z with a ROM segment whose first byte was loaded. -/
def stateRom : State :=
  { stateZ with chip.mem := { stateZ.chip.mem with segs := (0, .rom 0) :: stateZ.chip.mem.segs, cells := [(0, 0xA9)] } }

/-- A queued phase step in Z. -/
def stateStep : State := { stateZ with host.queue := [.op ⟨.step, [0#8]⟩] }

theorem test_meets_EncodedOperationsDecode :
    (Instr.memWr 0xFCFF 0x5A).wellFormed = true ∧ (Instr.ioWrFD 0xCF 1).wellFormed = true ∧
    (Instr.hostRun (-0x80000000)).wellFormed = true ∧ (Instr.hostLoadROM 1 2 3 (some [1, 2])).wellFormed = true := by decide

theorem test_meets_DecodedWordsReencode :
    decode .bus [0x00, 0x40, 0x01, 0x99] = .ok (.memRd 0x4000, [0x99]) ∧ Fmt.bus ≠ .host ∧
    decode .host [0x0A, 0xFF] = .ok (.hostReadRegister 0x1F, []) ∧ decode .render [0x1F] = .ok (.renderBlank true 7, []) :=
  ⟨rfl, by decide, rfl, rfl⟩

theorem test_meets_StepRunsTheQueuedOperation :
    (stateStep.host.queue = .op ⟨.step, [0#8]⟩ :: [] ∧ decode .step [0#8] = .ok (.stepPhaseEven, [])) ∧
    (stateZ.withQueue [.cycle 3]).host.queue = .cycle 3 :: [] ∧ stateZ.host.queue = [] ∧
    (stateZ.withQueue [.op ⟨.step, [4#8]⟩]).host.queue = .op ⟨.step, [4#8]⟩ :: [] ∧
      decode .step [4#8] = .error (.wordTooWide .step) := ⟨⟨rfl, rfl⟩, rfl, rfl, rfl, rfl⟩

/-- Z with another function for every parameter that is one, and external handlers of the I/O range (log 4). -/
def stateOpen : State :=
  { stateZ with chip.cfg := { stateZ.chip.cfg with
    columnLaw := some 0, incLineLaw := some 0, vsubLaw := some 0, fetchLaw := some 0, srFlagsLaw := some 0
    remLaw := some 0, pixelLaw := some 0, ioReadLaw := some 0, ioWriteLaw := some 0 } }

/-- A memory map that tells the chip's accesses from the CPU's by the chip bit of the key (R220): its RAMSETs are the
default ones, and address 0 is slot 0xFF for the CPU and 0xFE for the chip. -/
def mapData : MemoryMap where
  romSeg := List.range 8
  sizes := Config.ramSizes.map fun size =>
    ⟨size, List.range' (256 - size / 16) (size / 16), [((0x000, 0), 0xFF), ((0x010, 0), 0xFF), ((0x020, 0), 0xFE)]⟩

/-- Z with that memory map. -/
def stateMap : State := { stateZ with chip.cfg := { stateZ.chip.cfg with memoryMap := some mapData } }

/-- R220, R402: a memory map given as data. -/
theorem test_memory_map_by_the_chip_bit :
    [resolve .cpuRead 0x0123 stateMap.chip, resolve .cpuWrite 0x0123 stateMap.chip, resolve .chipDmaRead 0x0123 stateMap.chip,
      resolve .chipDmaRead 0x4000 stateMap.chip] = [some (0xFF, 0x123), some (0xFF, 0x123), some (0xFE, 0x123), none] ∧
    ramSet stateMap.chip.cfg 32 = [0xFE, 0xFF] ∧ romSeg stateMap.chip.cfg 7 = 7 := by decide +kernel

/-- The laws of Machine.Open are met by one good state, for every statement with a clause about them: ColumnTransitions,
ChipFetches, VideoLineIncrements, SubAddressUpdates, the renderers; by stateZ the default ones, which
DispatchRunsAndClearsTheMask asks for too. -/
theorem test_meets_the_open_parameters :
    (let g := stateOpen.chip.cfg
     [g.columnLaw, g.incLineLaw, g.vsubLaw, g.fetchLaw, g.srFlagsLaw, g.remLaw, g.pixelLaw, g.ioReadLaw, g.ioWriteLaw] =
      List.replicate 9 (some 0)) ∧
    (let g := stateZ.chip.cfg
     [g.columnLaw, g.incLineLaw, g.vsubLaw, g.fetchLaw, g.srFlagsLaw, g.remLaw, g.pixelLaw, g.ioReadLaw, g.ioWriteLaw] =
      List.replicate 9 none) ∧
    Good stateOpen = true ∧ LaidOut stateOpen = true := by decide +kernel

theorem test_good_states :
    (Good State.reset && Good stateZ && Good stateRom && Good stateStep && Good stateMap) = true ∧
    (LaidOut State.reset && LaidOut stateZ && LaidOut stateRom && LaidOut stateStep && LaidOut stateMap) = true := by decide +kernel

theorem test_meets_StepKeepsGoodStates_and_layout :
    Good stateStep = true ∧ LaidOut stateStep = true ∧ ∃ t, step stateStep = .next t :=
  ⟨by decide +kernel, by decide +kernel, _, rfl⟩

theorem test_meets_StepKeepsMarkParametersAndTrace :
    { stateStep with chip.refused := true }.chip.refused = true ∧
      ∃ t, step { stateStep with chip.refused := true } = .next t := ⟨rfl, _, rfl⟩

theorem test_meets_CallbackRegistrationAndCalls :
    (∃ t, exec (.hostRegisterCallback 1 2) stateZ = .next t) ∧ ∃ t, exec .hostSaveState stateZ = .next t :=
  ⟨⟨_, rfl⟩, _, rfl⟩

theorem test_meets_RomChangesOnlyByLoadRom :
    Good stateRom = true ∧ LaidOut stateRom = true ∧ (∃ t, exec (.hostConfigureRAM 16 7) stateRom = .next t) ∧
    (∀ b o l bs, Instr.hostConfigureRAM 16 7 ≠ .hostLoadROM b o l bs) ∧ stateRom.chip.mem.isRom 0 = true ∧ 16383 < 16384 :=
  ⟨by decide +kernel, by decide +kernel, ⟨_, rfl⟩, (fun _ _ _ _ h => nomatch h), by decide +kernel, by decide⟩

theorem test_meets_RunSplits :
    (0 : Int) ≤ 30 ∧ (0 : Int) ≤ 0 ∧ ∃ t u, exec (.hostRun 30) stateZ = .next t ∧ exec (.hostRun 0) t = .next u :=
  ⟨by decide, by decide, _, _, rfl, rfl⟩

theorem test_meets_RunUnrollsCycles :
    (-1 : Int) < 0 ∧ ((0 : Int) ≤ 7 ∧ { stateZ with tickBudget := -7 }.tickBudget + 7 ≤ 0) ∧
    ((0 : Int) ≤ 1 ∧ 0 < stateZ.tickBudget + 1) ∧
    (stateZ.tickBudget = 0 ∧ ∀ j < 1, (cycle^[j] stateZ.chip).seq.ntsc = stateZ.chip.seq.ntsc) ∧
    ∃ s1 s2 s3, exec .stepPhaseEven stateZ = .next s1 ∧ exec .stepPhaseOdd s1 = .next s2 ∧ exec .stepDacForce s2 = .next s3 ∧
      ∀ d : Chip, ∃ u, exec .stepSoundTick { s2 with chip := d } = .next u :=
  ⟨by decide, by decide, by decide, ⟨rfl, fun j hj => by rw [Nat.lt_one_iff.1 hj]; rfl⟩,
    _, _, _, rfl, rfl, rfl, fun _ => ⟨_, rfl⟩⟩

theorem test_meets_RunStopsAtCycleBoundaries :
    (0 : Int) ≤ 1 ∧ 0 < stateZ.tickBudget + 1 ∧ stateZ.chip.cfg.valid = true ∧ stateZ.chip.seq.phase = .even ∧
    stateZ.chip.seq.column.val % 2 = 0 := by decide +kernel

theorem test_meets_PhaseStepsRunInOrder :
    stateZ.chip.seq.phase = .even ∧ { stateZ with chip.seq.phase := .odd }.chip.seq.phase = .odd := ⟨rfl, rfl⟩

/-- The chip of Z at a column. -/
def chipAt (col : Fin 114) : Chip := { stateZ.chip with seq.column := col }

theorem test_meets_ColumnTransitions :
    (∀ p ∈ [(Phase.even, 4), (.odd, 0), (.even, 89)], (p.1, (chipAt p.2).seq.column.val) ∉
      [(Phase.even, 0), (.even, 2), (.even, 82), (.even, 84), (.even, 88), (.odd, 89), (.even, 94), (.even, 96), (.odd, 97),
        (.odd, 99), (.even, 106), (.even, 110), (.even, 112)]) ∧
    ∀ col ∈ [(0 : Fin 114), 2, 82, 84, 88, 89, 94, 96, 97, 99, 106, 110, 112], (chipAt col).seq.column = col := by
  refine ⟨by decide +kernel, fun _ _ => rfl⟩

theorem test_meets_BusStepsFollowTheBusMode :
    (let c := { stateZ.chip with seq.busMode := .chipDma }
     c.seq.busMode = .chipDma ∧ c.seq.charCol = 40 ∧ c.seq.refresh = false ∧ bit c.rf.regs[0x13] 1 = false ∧
       c.seq.scWin = false) ∧
    { stateZ.chip with seq.refresh := true }.seq.refresh = true ∧
    (∀ l ∈ [[], [CpuLine.nop], [.rd 0xFFFF], [.wr 0 1, .nop]], ∀ m ∈ [BusMode.cpuRun, .cpuHaltReq],
      let c := { stateZ.chip with seq.busMode := m, inp.cpuScript := l }
      c.seq.busMode = m ∧ c.inp.cpuScript = l ∧ c.seq.refresh = false ∧ bit c.rf.regs[0x13] 1 = false ∧
        c.seq.scWin = false) ∧
    (let c := { stateZ.chip with seq.scWin := true }
     c.seq.refresh = false ∧ c.seq.scWin = true ∧ c.seq.charCol = 40 ∧ c.seq.winV = false) := by
  have h0 : bit stateZ.chip.rf.regs[0x13] 1 = false := by decide +kernel
  refine ⟨by decide +kernel, rfl, fun _ _ _ _ => ⟨rfl, rfl, rfl, h0, rfl⟩, by decide +kernel⟩

theorem test_meets_ChipFetches :
    (let c := { stateZ.chip with seq.charCol := 39, seq.charSub := 7, seq.busMode := .chipDma }
     c.seq.charCol.val < 40 ∧ c.seq.busMode = .chipDma ∧ c.seq.charSub = 7) ∧
    (let c := { stateZ.chip with seq.charCol := 0, seq.charSub := 6, seq.busMode := .chipDma }
     c.seq.charCol.val < 40 ∧ c.seq.busMode = .chipDma ∧ c.seq.charSub ≠ 7) ∧
    (let c := { stateZ.chip with seq.charCol := 0, seq.scWin := true }
     c.seq.charCol.val < 40 ∧ c.seq.refresh = false ∧ c.seq.scWin = true) ∧
    (let c := { (zRegs [(0x13, 2)]).chip with seq.charCol := 39 }
     c.seq.charCol.val < 40 ∧ c.seq.refresh = false ∧ c.rf.regs[0x13].getLsbD 1 = true) := by decide +kernel

theorem test_meets_DelayedWritesAreAppliedAtTheirDispatch :
    (∃ t, exec (.wrFF1B 0x40) stateZ = .next t) ∧
    stateZ.chip.cfg.valid = true ∧
    bit (stateZ.chip.evMask (stateZ.chip.cfg.delayCpos.target stateZ.chip.seq.phase)) 3 = false ∧
    bit (stateZ.chip.evMask (stateZ.chip.cfg.delayCpos.target stateZ.chip.seq.phase)) 4 = false ∧
    stateZ.chip.evMask (stateZ.chip.cfg.delayCpos.target stateZ.chip.seq.phase).other = 0 :=
  ⟨⟨_, rfl⟩, by decide +kernel, by decide +kernel, by decide +kernel, by decide +kernel⟩

/-- Z with one RAM byte written. -/
def stateByte : State := { stateZ with chip.mem := stateZ.chip.mem.write 0xFF 0 0x5A }

theorem test_meets_MemoryReads :
    (∀ k ∈ [AccessKind.cpuRead, .chipDmaRead, .chipBitmapRead], resolve k 0x0000 stateByte.chip = some (0xFF, 0)) ∧
    stateByte.chip.mem.read 0xFF (0 : BitVec 14).toNat = some 0x5A ∧
    ∀ k ∈ [AccessKind.cpuRead, .chipDmaRead, .chipBitmapRead], resolve k 0xFFFF State.reset.chip = none := by decide +kernel

theorem test_meets_OpenBusAccesses :
    ∀ k ∈ [AccessKind.cpuRead, .cpuWrite, .chipDmaRead, .chipBitmapRead], resolve k 0xFFFF State.reset.chip = none := by
  decide +kernel

theorem test_meets_AccessesResolveByTheMap :
    State.reset.chip.mem.ramSizeKiB = none ∧
    (let g := stateZ.chip.cfg
     stateZ.chip.mem.ramSizeKiB = some 64 ∧ LaidOut stateZ = true ∧ g.valid = true ∧ g.memoryMap = none ∧
       g.slotRanges = defaultSlotRanges ∧ g.keyLayout[11]? = some 11 ∧ g.slotRanges[7]? = some (0xFF00, 0xFFFF) ∧
       (0xFF00 : Addr) ≤ 0xFFFF) ∧
    (let g := stateMap.chip.cfg
     g.memoryMap = some mapData ∧ (mapData.sizes.find? fun x => x.sizeKiB == 64).isSome = true ∧
       stateMap.chip.mem.ramSizeKiB = some 64) := by decide +kernel

theorem test_meets_ReadsReturnTheLastWrite :
    (let s := { stateZ with chip.lat.cpuRomOn := false }
     s.chip.lat.cpuRomOn = false ∧ resolve .cpuWrite 0xFFFF s.chip = some (0xFC, 0x3FFF) ∧
       s.chip.mem.isRam 0xFC = true) ∧
    ∃ t, exec (.memWr 0xFFFF 0x33) { stateZ with chip.lat.cpuRomOn := false } = .next t := ⟨by decide +kernel, _, rfl⟩

theorem test_meets_HorizontalPositionLoads :
    stateZ.chip.rf.pend1E = none ∧ { stateZ with chip.rf.pend1E := some 0xE3 }.chip.rf.pend1E = some 0xE3 ∧
    (let g := stateZ.chip.cfg
     g.hposWriteOdd.getD (0xE3 : Byte).toNat 0 = 113 ∧ g.hposWriteEven.getD (0xE3 : Byte).toNat 0 = 112 ∧
       g.hposWriteEven.getD (0xE4 : Byte).toNat 0 = 114) := by decide +kernel

theorem test_meets_PendingValuesLoad :
    (stateZ.chip.rf.pend1A = none ∧ stateZ.chip.rf.pend1B = none ∧ stateZ.chip.rf.pend1F = none) ∧
    ∀ a ∈ [none, some (3 : Byte)], ∀ b ∈ [none, some (0x40 : Byte)],
      let s := { stateZ with chip.rf.pend1A := a, chip.rf.pend1B := b, chip.rf.pend1F := some 0x2D }
      s.chip.rf.pend1A = a ∧ s.chip.rf.pend1B = b ∧ s.chip.rf.pend1F = some 0x2D :=
  ⟨⟨rfl, rfl, rfl⟩, fun _ _ _ _ => ⟨rfl, rfl, rfl⟩⟩

theorem test_meets_SubAddressUpdates :
    stateZ.chip.seq.winV = false ∧
    (let s := { stateZ with chip.seq.winV := true, chip.seq.charSub := 6 }
     s.chip.seq.winV = true ∧ s.chip.seq.charSub ≠ 7) ∧
    (let s := { zRegs [(6, 8)] with chip.seq.winV := true, chip.seq.charSub := 7, chip.seq.videoLine := 4 }
     s.chip.seq.charSub = 7 ∧ s.chip.seq.videoLine = (if s.chip.rf.regs[0x06].getLsbD 3 then 4 else 8)) ∧
    (let s := { stateZ with chip.seq.winV := true, chip.seq.charSub := 7, chip.seq.videoLine := 4 }
     s.chip.seq.charSub = 7 ∧ s.chip.seq.videoLine ≠ (if s.chip.rf.regs[0x06].getLsbD 3 then 4 else 8)) := by decide +kernel

theorem test_meets_TimersAndTheInterruptLine :
    (stateZ.chip.tmr.run1 = false ∧ stateZ.chip.tmr.run2 = false ∧ stateZ.chip.tmr.run3 = false) ∧
    (let c := { stateZ.chip with tmr := ⟨1, 1, 1, 5, true, true, true⟩ }
     c.tmr.run1 = true ∧ c.tmr.run2 = true ∧ c.tmr.run3 = true ∧ c.tmr.tmr1 ≠ 0 ∧ c.tmr.tmr2 ≠ 0 ∧ c.tmr.tmr3 ≠ 0) ∧
    (let c := { stateZ.chip with tmr := ⟨0, 0, 0, 5, true, true, true⟩ }
     c.tmr.run1 = true ∧ c.tmr.run2 = true ∧ c.tmr.run3 = true ∧ c.tmr.tmr1 = 0 ∧ c.tmr.tmr2 = 0 ∧ c.tmr.tmr3 = 0) := by
  decide +kernel

theorem test_meets_OverrideCheck :
    (let c := { stateZ.chip with seq.vBlank := true }
     c.seq.hBlank = true ∨ c.seq.vBlank = true) ∧
    (let c := { stateZ.chip with seq.winH := true }
     c.seq.hBlank = false ∧ c.seq.vBlank = false ∧ (c.seq.winH = false ∨ c.seq.winV = false)) ∧
    (let c := { stateZ.chip with seq.winH := true, seq.winV := true }
     c.seq.hBlank = false ∧ c.seq.vBlank = false ∧ c.seq.winH = true ∧ c.seq.winV = true) := by decide +kernel

/-- Z with a buffer of 450 bytes, the most a good state holds. -/
def stateFull : State := { stateZ with chip.vid.outBuf := (List.replicate 225 [0x21#8, 0#8]).flatten }

theorem test_meets_FlushesHoldWholeRecords_and_SamplesAreTableEntries :
    Good stateZ = true ∧ Good stateFull = true ∧ Good { stateZ with chip.snd.prevLevel := 150 } = true := by decide +kernel

theorem test_meets_ShiftRegisterAdvance :
    stateZ.chip.seq.charCol = 40 ∧ { stateZ.chip with seq.charCol := 39 }.seq.charCol.val < 40 := by decide +kernel

theorem test_meets_ConfigureRamCompletes :
    Good stateRom = true ∧ stateRom.host.allocDraws = true :: List.replicate 7 true ∧ stateRom.chip.cfg.memoryMap = none ∧
    (stateRom.chip.mem.isRom 0 = true ∧ 16383 < 16384 ∧ stateRom.chip.mem.isRam 0xFC = true) ∧
    (let g := stateRom.chip.cfg
     (configuredMem g 64 0 stateRom.chip.mem).isRam 0xFC = true ∧ stateRom.chip.mem.isRam 0xFB = false ∧
      (configuredMem g 256 0 stateRom.chip.mem).isRam 0xFB = true) ∧
    Good stateMap = true ∧ stateMap.host.allocDraws = true :: List.replicate 7 true ∧
    stateMap.chip.cfg.memoryMap = some mapData ∧
    (mapData.sizes.find? fun x => x.sizeKiB == 256).isSome = true ∧
    (let s := { stateRom with host.allocDraws := [] }
     Good s = true ∧ s.host.allocDraws = [] ∧
       (∀ k ∈ ramSet s.chip.cfg (roundRam 64), s.chip.mem.isRam k = true) ∧
       0xF0 ∈ ramSet s.chip.cfg (roundRam 256) ∧ s.chip.mem.isRam 0xF0 = false) := by decide +kernel

theorem test_meets_ConfigureRamFailureChangesNothing :
    { stateZ with host.allocDraws := [false] }.host.allocDraws = false :: [] ∧
    0xF0 ∈ ramSet stateZ.chip.cfg (roundRam 256) ∧ stateZ.chip.mem.isRam 0xF0 = false := ⟨rfl, by decide +kernel⟩

theorem test_meets_ConfigureRamIsIdempotent :
    Good stateRom = true ∧ ∃ t, exec (.hostConfigureRAM 5000 3) stateRom = .next t ∧ t.host.result = .success :=
  ⟨by decide +kernel, _, rfl, rfl⟩

theorem test_meets_LoadRomCompletes :
    Good stateRom = true ∧ (1 < [0xAA, 0xBB].length ∧ 1 < (2 : Int).toNat ∧ 2 ≤ 1 + 16384) ∧
    stateRom.chip.mem.isRom (8 % 8 : Int).toNat = true ∧
    ((2 : Nat) < 16384 ∧ ∀ j < min (2 : Int).toNat [0xAA, 0xBB].length, 2 ≠ (((-1) % 16384 : Int).toNat + j) % 16384) ∧
    (let bytes := List.replicate 16386 0xAA#8
     let n := min (16386 : Int).toNat bytes.length
     2 < bytes.length ∧ 2 < n ∧ n ≤ 2 + 16384 ∧ ¬n ≤ 1 + 16384) ∧ 0xFF ≠ (8 % 8 : Int).toNat :=
  ⟨by decide +kernel, by decide, by decide +kernel, by decide, by simp only [List.length_replicate]; decide, by decide⟩

theorem test_meets_HostCallResults :
    resolve .cpuRead 0xC000 stateZ.chip = none ∧ resolve .cpuWrite 0xFFFF stateZ.chip = some (0xFC, 0x3FFF) ∧
    (0x1F : BitVec 5) ≠ 8 := by decide +kernel

theorem test_meets_ResetSetsEveryElement :
    stateZ.host.resetDraws = namedResetDraws :: [] ∧ stateZ.chip.cfg.coldRam = .keep ∧
    { stateZ with host.resetDraws := [] }.host.resetDraws = [] := ⟨rfl, rfl, rfl⟩

theorem test_meets_ColdResetRefillsRam :
    (let s := { stateRom with chip.cfg.coldRam := .refill }
     Good s = true ∧ LaidOut s = true ∧ s.chip.cfg.coldRam = .refill ∧ s.host.resetDraws = namedResetDraws :: []) ∧
    (let s := { stateRom with chip.cfg.coldRam := .refill, host.resetDraws := [] }
     Good s = true ∧ LaidOut s = true ∧ s.chip.cfg.coldRam = .refill ∧ s.host.resetDraws = []) ∧
    (stateRom.chip.mem.isRom 0 = true ∧ stateRom.chip.mem.isRam 0xFF = true ∧ stateRom.chip.mem.ramSizeKiB = some 64 ∧
      stateRom.chip.mem.fillPattern = some 0 ∧ 16383 < 16384) := by decide +kernel

/-- Another chip, with the ROM of stateRom only, that holds its snapshot. -/
def stateOther : State :=
  { State.reset with
    chip.mem := { State.reset.chip.mem with segs := [(0, .rom 0)], cells := [(0, 0xA9)] }
    chip.seq.charSub := 3, host.snapshots := [snapshotOf stateRom] }

theorem test_meets_SnapshotsSaveAndLoad :
    Good stateOther = true ∧ LaidOut stateOther = true ∧ stateOther.host.snapshots[0]? = some (snapshotOf stateRom) ∧
    (snapshotOf stateRom).ram.isRam 0xFF = true ∧ stateOther.chip.mem.isRom 0 = true ∧ 16383 < 16384 :=
  ⟨by decide +kernel, by decide +kernel, rfl, by decide +kernel, by decide +kernel, by decide⟩

theorem test_meets_SnapshotRoundTrip :
    Good stateRom = true ∧ LaidOut stateRom = true ∧ Good stateOther = true ∧ LaidOut stateOther = true ∧
    stateOther.host.snapshots[0]? = some (snapshotOf stateRom) ∧
    (∀ k, stateOther.chip.mem.isRom k = stateRom.chip.mem.isRom k) ∧
    (∀ k, stateRom.chip.mem.isRom k = true → stateOther.chip.mem.seg k = stateRom.chip.mem.seg k) ∧
    (∀ a, stateRom.chip.mem.isRom (a / 16384) = true →
      assocGet stateOther.chip.mem.cells a = assocGet stateRom.chip.mem.cells a) ∧
    stateOther.chip.callbacks = stateRom.chip.callbacks ∧ stateOther.chip.cfg = stateRom.chip.cfg ∧
    stateOther.chip.inp = stateRom.chip.inp ∧ stateOther.chip.draws = stateRom.chip.draws ∧
    (stateOther.chip.refused = true → stateRom.chip.refused = true) ∧
    ∃ u, exec (.hostLoadState 0) stateOther = .next u := by
  have hm : stateRom.chip.mem.segs = (0, .rom 0) :: (List.range' 0xFC 4).map fun i => (i, Segment.ram 64 0) := by
    decide +kernel
  have hs : ∀ k, stateRom.chip.mem.seg k = if k = 0 then some (.rom 0) else
      if 0xFC ≤ k ∧ k < 0x100 then some (.ram 64 0) else none := by
    intro k
    rw [Memory.seg, hm]
    simp only [assocGet, List.range', List.map]
    split_ifs <;> first | rfl | omega
  have ho : ∀ k, stateOther.chip.mem.seg k = if k = 0 then some (.rom 0) else none := by
    intro k
    show (if 0 = k then some (Segment.rom 0) else none) = _
    split_ifs <;> first | rfl | omega
  refine ⟨by decide +kernel, by decide +kernel, by decide +kernel, by decide +kernel, rfl, fun k => ?_, fun k hk => ?_,
    fun _ _ => rfl, rfl, rfl, rfl, rfl, id, _, rfl⟩
  · simp only [Memory.isRom, hs, ho]
    split_ifs <;> rfl
  · simp only [Memory.isRom, hs] at hk
    rw [hs, ho]
    split_ifs at hk ⊢ <;> first | rfl | simp [Segment.isRam] at hk

end Sys2Proof.Tests
end

/-! # Proofs: the whole step, the state at reset, and the renderers -/

namespace Sys2Proof.Proofs

open Sys2Proof.Machine Sys2Proof.Laws

/-! ## What every operation keeps: the refused mark, the parameters and the observed calls -/

/-- What no operation takes back from the chip: the refused mark (R172), the parameters (R173), the calls observed so far
(R45). It is the part of `Evolves` that the host's memory, reset and snapshot calls keep as well. -/
structure KeepsRecord (c c' : Chip) : Prop where
  refused : c.refused = true → c'.refused = true
  cfg : c'.cfg = c.cfg
  trace : ∃ es, c'.trace = es ++ c.trace

theorem KeepsRecord.refl (c : Chip) : KeepsRecord c c := ⟨id, rfl, [], rfl⟩

theorem KeepsRecord.trans {c c' c'' : Chip} (h : KeepsRecord c c') (h' : KeepsRecord c' c'') : KeepsRecord c c'' where
  refused hr := h'.refused (h.refused hr)
  cfg := h'.cfg.trans h.cfg
  trace := by
    obtain ⟨es, he⟩ := h.trace
    obtain ⟨es', he'⟩ := h'.trace
    exact ⟨es' ++ es, by rw [he', he, List.append_assoc]⟩

theorem KeepsRecord.of_evolves {c c' : Chip} (h : Evolves c c') : KeepsRecord c c' := ⟨h.refused, h.cfg, h.trace⟩

/-! ### Operations of the chip alone -/

/-- Outside the host calls an operation changes the chip alone, and as `Evolves` says. -/
theorem exec_evolves (i : Instr) (s : State) (h : (encode i).fmt ≠ .host) :
    ∃ f : Chip → Chip, exec i s = s.chipStep f ∧ Evolves s.chip (f s.chip) := by
  cases i with
  | rdFF00 | rdFF01 | rdFF02 | rdFF03 | rdFF04 | rdFF05 | rdFF06 | rdFF07 | rdFF08 | rdFF09 | rdFF0A | rdFF0B | rdFF0C
  | rdFF0D | rdFF0E | rdFF0F | rdFF10 | rdFF11 | rdFF12 | rdFF13 | rdFF14 | rdFF15 | rdFF16 | rdFF17 | rdFF18 | rdFF19
  | rdFF1A | rdFF1B | rdFF1C | rdFF1D | rdFF1E | rdFF1F => exact ⟨_, rfl, evolves_cpuReadReg _ _⟩
  | wrFF00 v | wrFF01 v | wrFF02 v | wrFF03 v | wrFF04 v | wrFF05 v | wrFF06 v | wrFF07 v | wrFF08 v | wrFF09 v
  | wrFF0A v | wrFF0B v | wrFF0C v | wrFF0D v | wrFF0E v | wrFF0F v | wrFF10 v | wrFF11 v | wrFF12 v | wrFF13 v
  | wrFF14 v | wrFF15 v | wrFF16 v | wrFF17 v | wrFF18 v | wrFF19 v | wrFF1A v | wrFF1B v | wrFF1C v | wrFF1D v
  | wrFF1E v | wrFF1F v => exact ⟨_, rfl, evolves_cpuWriteReg _ v _⟩
  | wrFF3E v => exact ⟨_, rfl, evolves_cpuRomOn v _⟩
  | wrFF3F v => exact ⟨_, rfl, evolves_cpuRomOff v _⟩
  | wrFDDx x v => exact ⟨_, rfl, evolves_cpuSetBanks x v _⟩
  | ioRdFD lo | ioRdFE lo => exact ⟨_, rfl, evolves_ioRead _ _⟩
  | ioWrFD lo v | ioWrFE lo v => exact ⟨_, rfl, evolves_ioWrite _ v _⟩
  | memRd a => exact ⟨_, rfl, evolves_cpuMemRead a _⟩
  | memWr a v => exact ⟨_, rfl, evolves_cpuMemWrite a v _⟩
  | hostConfigureRAM | hostLoadROM | hostResolve | hostGetSegmentKind | hostRun | hostReset | hostSaveState | hostLoadState
  | hostRegisterCallback | hostWriteRegister | hostReadRegister | hostReservedB | hostReservedC | hostReservedD
  | hostReservedE | hostReservedF => exact absurd rfl h
  | stepPhaseEven => exact ⟨_, rfl, evolves_phaseEven _⟩
  | stepPhaseOdd => exact ⟨_, rfl, evolves_phaseOdd _⟩
  | stepSoundTick => exact ⟨_, rfl, evolves_soundTick _⟩
  | stepDacForce => exact ⟨_, rfl, evolves_dacForce _⟩
  | evLoadHpos => exact ⟨_, rfl, evolves_microOp _ 0 _⟩
  | evLoadCposReload => exact ⟨_, rfl, evolves_microOp .even 1 _⟩
  | evLoadVsub => exact ⟨_, rfl, evolves_microOp .even 2 _⟩
  | evIncVideoLine => exact ⟨_, rfl, evolves_microOp .even 3 _⟩
  | evUpdateVsub => exact ⟨_, rfl, evolves_microOp .even 4 _⟩
  | evSelectRenderer => exact ⟨_, rfl, evolves_microOp .even 5 _⟩
  | evStopDma => exact ⟨_, rfl, evolves_microOp .even 6 _⟩
  | evReserved7 | evReserved8 | evReserved9 | evReserved10 | evReserved11 | evReserved12 | evReserved13 | evReserved14
  | evReserved15 | evReserved16 | evReserved17 | evReserved18 | evReserved19 | evReserved20 | evReserved21
  | evReserved22 | evReserved23 | evReserved24 | evReserved25 | evReserved26 | evReserved27 | evReserved28
  | evReserved29 | evReserved30 | evReserved31 => exact ⟨_, rfl, evolves_microOp _ _ _⟩
  | renderText | renderMcText | renderHiresBmp | renderMcBmp | renderEcmText | renderInvalid101 | renderInvalid110
  | renderInvalid111 | renderBlank | renderBorder => exact ⟨_, rfl, evolves_emitGroup _ _ _ _⟩

/-! ### The host calls -/

theorem keepsRecord_mem (c : Chip) (m : Memory) : KeepsRecord c { c with mem := m } := ⟨id, rfl, [], rfl⟩

theorem keepsRecord_drewAlloc (s : State) : KeepsRecord s.chip s.drewAlloc.chip := by
  unfold State.drewAlloc
  split
  · exact .refl _
  · exact .of_evolves (evolves_drew _ 1)

theorem keepsRecord_drewReset (s : State) : KeepsRecord s.chip s.drewReset.chip := by
  unfold State.drewReset
  split
  · exact .refl _
  · exact .of_evolves (evolves_drew _ 1)

theorem keepsRecord_execHostConfigureRAM {size : Int} {fp : Nat} {s t : State}
    (h : execHostConfigureRAM size fp s = .next t) : KeepsRecord s.chip t.chip := by
  unfold execHostConfigureRAM at h
  dsimp only at h
  split_ifs at h <;> cases h
  · exact (keepsRecord_drewAlloc s).trans (keepsRecord_mem _ _)
  · exact keepsRecord_drewAlloc s
  · exact keepsRecord_mem _ _

theorem keepsRecord_loadRom (bank offset length : Int) (bytes : Option (List Byte)) (c : Chip) :
    KeepsRecord c (loadRom bank offset length bytes c) := by
  unfold loadRom
  split
  · exact keepsRecord_mem c _
  · dsimp only
    split_ifs
    · exact keepsRecord_mem c _
    · exact (keepsRecord_mem c _).trans (.of_evolves (evolves_drew _ 1))

theorem keepsRecord_execHostRun {ticks : Int} {s t : State} (h : execHostRun ticks s = .next t) :
    KeepsRecord s.chip t.chip := by
  unfold execHostRun at h
  split_ifs at h <;> cases h
  · exact .refl _
  · exact .of_evolves (evolves_runBudget _ _)

/-- A reset keeps the mark (R1202 lists it among the unchanged elements) and only adds calls (R1200). -/
theorem keepsRecord_resetChip (cold : Bool) (d : ResetDraws) (c : Chip) : KeepsRecord c (resetChip cold d c) := by
  have hset : KeepsRecord c (c.afterReset d) := ⟨id, rfl, [], rfl⟩
  have hram : KeepsRecord (c.afterReset d) (coldRamReset cold (c.afterReset d)) := by
    unfold coldRamReset
    split
    · exact keepsRecord_mem _ _
    · exact .refl _
  have hstd : ∀ c', KeepsRecord c' (notifyStandard c.seq.ntsc c') := fun c' => by
    unfold notifyStandard
    split
    · exact .refl _
    · exact .of_evolves (evolves_emit _ _)
  exact ((hset.trans hram).trans (hstd _)).trans (.of_evolves (evolves_emit _ _))

/-- The mark of a restored chip is its own or the snapshot's (R1211): the chip's own is not lost. -/
theorem keepsRecord_restore (c : Chip) (k : Snapshot) : KeepsRecord c (c.restore k) :=
  ⟨fun h => by simp only [Chip.restore, h, Bool.true_or], rfl, [], rfl⟩

theorem keepsRecord_execHostLoadState {k : Nat} {s t : State} (h : execHostLoadState k s = .next t) :
    KeepsRecord s.chip t.chip := by
  unfold execHostLoadState at h
  split at h
  · cases h
  · cases h
    exact keepsRecord_restore _ _

/-- Every operation keeps the mark, the parameters and the observed calls. -/
theorem exec_keepsRecord (i : Instr) {s t : State} (h : exec i s = .next t) : KeepsRecord s.chip t.chip := by
  by_cases hf : (encode i).fmt = .host
  · cases i with
    | hostConfigureRAM => exact keepsRecord_execHostConfigureRAM h
    | hostLoadROM => cases h; exact keepsRecord_loadRom _ _ _ _ _
    | hostResolve | hostGetSegmentKind | hostSaveState => cases h; exact .refl _
    | hostRun => exact keepsRecord_execHostRun h
    | hostReset cold => cases h; exact (keepsRecord_drewReset s).trans (keepsRecord_resetChip cold _ _)
    | hostLoadState => exact keepsRecord_execHostLoadState h
    | hostRegisterCallback => cases h; exact ⟨id, rfl, [], rfl⟩
    | hostWriteRegister => cases h; exact .of_evolves (evolves_writeRule _ _ _ _)
    | hostReadRegister => cases h; exact .of_evolves (evolves_drewOnRead _ _)
    | hostReservedB | hostReservedC | hostReservedD | hostReservedE | hostReservedF =>
      cases h; exact .of_evolves (evolves_refuse _)
    | _ => cases hf
  · obtain ⟨f, hexec, hevolves⟩ := exec_evolves i s hf
    rw [hexec] at h
    cases h
    exact .of_evolves hevolves

/-- All that a step can do: nothing where nothing is queued, else one operation on the state with a shorter queue. -/
theorem step_cases {s t : State} (h : step s = .next t) :
    (s.host.queue = [] ∧ t = s) ∨
      ∃ (call : HostCall) (rest : List HostCall) (i : Instr),
        s.host.queue = call :: rest ∧ exec i (s.withQueue rest) = .next t := by
  unfold step at h
  split at h
  next hq => cases h; exact .inl ⟨hq, rfl⟩
  next n rest hq => exact .inr ⟨_, rest, _, hq, h⟩
  next op rest hq =>
    split at h
    · exact .inr ⟨_, rest, _, hq, h⟩
    · cases h

/-- Settles O9: every operation keeps the record, and a step is an operation or nothing. -/
theorem stepKeepsMarkParametersAndTrace : Obligations.StepKeepsMarkParametersAndTrace := by
  intro s t h
  have hkeeps : KeepsRecord s.chip t.chip := by
    obtain ⟨-, rfl⟩ | ⟨-, rest, i, -, hexec⟩ := step_cases h
    · exact .refl _
    · exact exec_keepsRecord (s := s.withQueue rest) i hexec
  exact ⟨hkeeps.refused, hkeeps.cfg, hkeeps.trace⟩

/-! ## The state at reset -/

/-! ### The default tables, entry by entry -/

/-- An entry of a table made from a function. -/
theorem getD_map_range {α : Type} (f : Nat → α) {n i : Nat} (h : i < n) (d : α) :
    ((List.range n).map f).getD i d = f i := by
  simp [h]

theorem default_hposRead (col : Fin 114) : Params.default.hposRead.getD col.val 0 = BitVec.ofNat 8 (2 * col.val) :=
  getD_map_range defaultHposRead col.isLt 0

/-- The default column of a written position is `(v >> 1) & 0x7E` in an EVEN phase, and the column after it in an ODD one
(R740). -/
theorem defaultHposWrite_toNat (v : Byte) :
    defaultHposWrite 0 v.toNat = ((v >>> 1) &&& 0x7E).toNat ∧
      defaultHposWrite 1 v.toNat = ((v >>> 1) &&& 0x7E ||| 1).toNat := by
  revert v; decide +kernel

theorem default_hposWriteEven (v : Byte) : Params.default.hposWriteEven.getD v.toNat 0 = ((v >>> 1) &&& 0x7E).toNat :=
  (getD_map_range (defaultHposWrite 0) (n := 256) v.isLt 0).trans (defaultHposWrite_toNat v).1

theorem default_hposWriteOdd (v : Byte) : Params.default.hposWriteOdd.getD v.toNat 0 = ((v >>> 1) &&& 0x7E ||| 1).toNat :=
  (getD_map_range (defaultHposWrite 1) (n := 256) v.isLt 0).trans (defaultHposWrite_toNat v).2

theorem default_reload (f : BitVec 10) : Params.default.reload.getD f.toNat 0 = 0x3FF - f := by
  rw [Params.default, getD_map_range defaultReload f.isLt, defaultReload, BitVec.ofNat_toNat, BitVec.setWidth_eq]
  rfl

theorem default_vol (v : Fin 16) : Params.default.vol.getD v.val 0 = min v.val 8 :=
  getD_map_range (fun v => min v 8) v.isLt 0

theorem default_scale {m v : Nat} (hm : m < 3) (hv : v < 9) :
    (Params.default.scale.getD m []).getD v 0 = m * v * 75 / 8 := by
  have hrow : Params.default.scale.getD m [] = (List.range 9).map (defaultScale m) :=
    getD_map_range (fun m => (List.range 9).map (defaultScale m)) hm []
  rw [hrow]
  exact getD_map_range (defaultScale m) hv 0

/-- Every entry of the default distortion table fits its 16 bits (R1033). -/
theorem default_dist (n : Fin 301) : (Params.default.dist.getD n.val 0).toInt = 200 * (n.val : Int) - 30000 := by
  have hentry : Params.default.dist.getD n.val 0 = defaultDist n.val := getD_map_range defaultDist n.isLt 0
  have hn := n.isLt
  rw [hentry, defaultDist, BitVec.toInt_ofInt]
  exact Int.bmod_eq_of_le (by omega) (by omega)

theorem default_mix (i : BitVec 7) :
    Params.default.mix.getD i.toNat 0 = (i.getLsbD 3 && i.getLsbD 0).toNat +
      (if i.getLsbD 4 then i.getLsbD 1 else i.getLsbD 5 && i.getLsbD 2).toNat :=
  getD_map_range defaultMix (n := 128) i.isLt 0

/-- The default noise register shifts left with the parity of its taps 7, 5, 4 and 3 (R1022). -/
theorem default_lfsrStep (x : Byte) :
    BitVec.ofNat 8 (lfsrStep Params.default x.toNat) =
      (x <<< 1) ||| ((x >>> 7 ^^^ x >>> 5 ^^^ x >>> 4 ^^^ x >>> 3) &&& 1) := by
  revert x; decide +kernel

/-! ### The default key layout -/

/-- One bit of a key at its own place. -/
theorem getLsbD_setBit_of_bit (key : BitVec 12) (i k : Nat) (h : i < 12) :
    (if bit key i then setBit 0 i else 0 : BitVec 12).getLsbD k = (decide (i = k) && key.getLsbD k) := by
  by_cases hk : i = k
  · subst hk
    rw [decide_eq_true rfl, Bool.true_and]
    change _ = bit key i
    cases bit key i with
    | true => simp [setBit, h]
    | false => simp
  · rw [decide_eq_false hk, Bool.false_and]
    split <;> simp [setBit]
    omega

/-- Bits that keep their places are placed where they are (R212). -/
theorem getLsbD_placeKey_range' (key : BitVec 12) (n i k : Nat) (h : i + n ≤ 12) :
    (placeKey (List.range' i n) i key).getLsbD k = (decide (i ≤ k ∧ k < i + n) && key.getLsbD k) := by
  induction n generalizing i with
  | zero => simp [placeKey]
  | succ n ih =>
    simp only [List.range'_succ, placeKey, BitVec.getLsbD_or, ih (i + 1) (by omega),
      getLsbD_setBit_of_bit key i k (by omega), ← Bool.and_or_distrib_right, ← Bool.decide_or]
    congr 2
    apply propext
    omega

theorem placeKey_range (key : BitVec 12) : placeKey (List.range 12) 0 key = key := by
  refine BitVec.eq_of_getLsbD_eq fun i hi => ?_
  rw [List.range_eq_range', getLsbD_placeKey_range' key 12 0 i (by omega), decide_eq_true (by omega), Bool.true_and]

/-- Settles O7: the closed invariants are evaluated, each table is read by its own lemma, and the remaining defaults are
the values of `Params.default` and of `Chip.created` as they are written. -/
theorem resetStateIsGood : Obligations.ResetStateIsGood := by
  have hgood : Good State.reset = true := by decide +kernel
  have hlaid : LaidOut State.reset = true := by decide +kernel
  have hflash : ∀ n : BitVec 4, (0xFF00#16).getLsbD n.toNat = n.getLsbD 3 := by decide
  refine ⟨hgood, hlaid, ⟨fun _ => rfl, rfl, rfl, rfl, rfl⟩, ?_⟩
  rw [reset_cfg]
  exact ⟨rfl, rfl, rfl, rfl, rfl, placeKey_range, rfl, default_hposRead,
    fun v => ⟨default_hposWriteEven v, default_hposWriteOdd v⟩, hflash, rfl, default_reload, default_vol,
    fun _ hm _ hv => default_scale hm hv, default_dist, default_mix, default_lfsrStep, rfl, rfl, rfl, rfl, rfl, rfl,
    rfl, rfl, rfl⟩

/-! ## The renderers: what one invocation appends, and the colours of each mode -/

/-! ### The record and the buffer -/

/-- A flag at its place is the flag shifted to it. -/
theorem byteBit_eq_flagAt (b : Bool) (place : Fin 8) : byteBit b place.val = flagAt b place := by
  revert place; cases b <;> decide

theorem setBit_eq_or_flagAt (f : Byte) (place : Fin 8) : setBit f place.val = f ||| flagAt true place := by
  rw [← byteBit_eq_flagAt]; rfl

theorem recordFlags_eq_flagsByte (c : Chip) (border : Bool) :
    c.recordFlags border = flagsByte c.cfg.flagsLayout c.seq border := by
  simp only [Chip.recordFlags, flagsByte, byteBit_eq_flagAt]

theorem record_eq_recordBytes (g : Group) (place : Fin 8) (f : Byte) :
    g.record place.val f = recordBytes place f g.c0 g.c1 g.c2 g.c3 := by
  simp only [Group.record, Group.solid, recordBytes, setBit_eq_or_flagAt, Bool.and_eq_true, beq_iff_eq, and_assoc]

theorem flushCheck_of_full {c : Chip} (h : 450 < c.vid.outBuf.length) :
    flushCheck c = { c with
      vid.outBuf := []
      trace := .video c.vid.outBuf c.vid.outBuf.length :: c.trace } := if_pos h

theorem flushCheck_of_not_full {c : Chip} (h : ¬450 < c.vid.outBuf.length) : flushCheck c = c := if_neg h

/-- The end of a render, before the buffer is checked: the record is appended and the free values are counted. -/
theorem emitGroup_eq (sel : RenderSel) (rem : Nat) (g : Group) (c : Chip) :
    emitGroup sel rem g c = shiftBitmap (flushCheck { c with
      vid.outBuf := c.vid.outBuf ++
        recordBytes c.cfg.flagsLayout.solid (flagsByte c.cfg.flagsLayout c.seq sel.isBorder) g.c0 g.c1 g.c2 g.c3
      draws := c.draws + sel.drawn rem }) := by
  rw [← recordFlags_eq_flagsByte, ← record_eq_recordBytes]
  rfl

/-- The end of a render: `State.rendered` with the colours of the group. -/
theorem onChip_emitGroup (s : State) (sel : RenderSel) (rem : Nat) (g : Group) :
    s.onChip (emitGroup sel rem g) = s.rendered sel.isBorder (sel.drawn rem) g.c0 g.c1 g.c2 g.c3 := by
  simp only [State.onChip, emitGroup_eq, State.rendered]
  generalize s.chip.vid.outBuf ++ recordBytes _ _ _ _ _ _ = buf
  by_cases hfull : 450 < buf.length
  · rw [flushCheck_of_full (by exact hfull)]
    simp only [if_pos hfull, shiftBitmap]
  · rw [flushCheck_of_not_full (by exact hfull)]
    simp only [if_neg hfull, shiftBitmap]

theorem pixelRem_eq_remaining (s : State) : pixelRem s.chip.seq.phase s.chip = s.remaining := by
  unfold pixelRem State.remaining
  cases s.chip.cfg.remLaw with
  | none => cases s.chip.seq.phase <;> rfl
  | some k => rfl

/-- One invocation of a renderer in the current phase: the record of its four colours (R900). -/
theorem chipStep_renderWith (s : State) (sel : RenderSel) :
    let px := sel.colour s.remaining s.chip
    s.chipStep (fun c => renderWith sel c.seq.phase c) =
      .next (s.rendered sel.isBorder (sel.drawn s.remaining) (px 0) (px 1) (px 2) (px 3)) := by
  have hgroup := onChip_emitGroup s sel s.remaining (sel.group s.remaining s.chip)
  simp only [State.chipStep, State.onChip, renderWith, pixelRem_eq_remaining] at hgroup ⊢
  rw [hgroup]
  rfl

/-- A renderer of a mode: free values past the character, and before that the pixel function of the mode (R916,
R920-R926). -/
theorem chipStep_renderWith_mode (s : State) (r : Renderer) (n : Nat) (colour : Nat → Byte)
    (hn : n = if r = .invalid then 4 else 0)
    (hcolour : ∀ j : Fin 4, (RenderSel.mode r).pixel s.remaining s.chip j = colour j.val) :
    s.chipStep (fun c => renderWith (.mode r) c.seq.phase c) = .next (s.renderedMode n colour) := by
  have hgroup : ∀ j : Fin 4, (RenderSel.mode r).colour s.remaining s.chip j =
      if s.remaining ≤ j.val then Config.straddleColour (s.chip.draws + j.val) &&& 0x7F else colour j.val := fun j => by
    simp only [RenderSel.colour, RenderSel.past, decide_eq_true_eq, hcolour]
  have hdrawn : (RenderSel.mode r).drawn s.remaining = if s.remaining < 4 then 4 else n := by
    subst hn
    by_cases hrem : s.remaining < 4
    · simp only [RenderSel.drawn, hrem, true_or, if_true]
    · simp only [RenderSel.drawn, hrem, false_or, if_false]
  rw [chipStep_renderWith, hdrawn]
  simp only [hgroup]
  rfl

/-- Blank shows no character: its four colours are those of the pixel function (R927). -/
theorem chipStep_renderWith_blank (s : State) :
    let px := RenderSel.blank.pixel s.remaining s.chip
    s.chipStep (fun c => renderWith .blank c.seq.phase c) = .next (s.rendered false 0 (px 0) (px 1) (px 2) (px 3)) :=
  chipStep_renderWith s .blank

/-- Border shows no character either, and sets the border flag (R928, R951). -/
theorem chipStep_renderWith_border (s : State) :
    let px := RenderSel.border.pixel s.remaining s.chip
    s.chipStep (fun c => renderWith .border c.seq.phase c) = .next (s.rendered true 0 (px 0) (px 1) (px 2) (px 3)) :=
  chipStep_renderWith s .border

/-! ### The pixel functions -/

theorem pixel_of_default {c : Chip} (h : c.cfg.pixelLaw = none) (sel : RenderSel) (rem : Nat) (j : Fin 4) :
    sel.pixel rem c j = sel.defaultColour c j := by
  simp only [RenderSel.pixel, h]

/-- Another `P_PIXEL` gives the four colours of its group (R22). -/
theorem pixel_of_other {s : State} {k : Nat} (h : s.chip.cfg.pixelLaw = some k) (sel : RenderSel) (j : Fin 4) :
    sel.pixel s.remaining s.chip j = s.pixelsOf k sel j.val := by
  simp only [RenderSel.pixel, h, State.pixelsOf]
  match j with
  | 0 | 1 | 2 | 3 => rfl

/-- The background of ECM_TEXT by the character's two high bits (R922). -/
theorem bg_field_char (c : Chip) (ch : Byte) :
    c.bg (field ch 6 2).toFin =
      (if ch.getLsbD 7 then (if ch.getLsbD 6 then c.rf.regs[0x18] else c.rf.regs[0x17])
        else (if ch.getLsbD 6 then c.rf.regs[0x16] else c.rf.regs[0x15])) &&& 0x7F := by
  have hfield : (field ch 6 2).toFin = ⟨2 * (ch.getLsbD 7).toNat + (ch.getLsbD 6).toNat, by
      cases ch.getLsbD 7 <;> cases ch.getLsbD 6 <;> decide⟩ := by
    revert ch; decide
  rw [hfield]
  cases ch.getLsbD 7 <;> cases ch.getLsbD 6 <;> rfl

/-- The pair of a pixel as its two bits (R913, R925). -/
theorem pixelPair_toNat (sr : ShiftReg) (j : Fin 4) :
    (pixelPair sr j).toNat =
      2 * (sr.bitmap.getLsbD (7 - 2 * (j.val / 2))).toNat + (sr.bitmap.getLsbD (6 - 2 * (j.val / 2))).toNat := by
  simp only [pixelPair]
  generalize sr.bitmap = b
  revert b
  match j with
  | 0 | 1 | 2 | 3 => decide

/-- The colour of a set pixel of a bitmap cell, by its fields (R923). -/
theorem cellOne_eq_fields (sr : ShiftReg) :
    cellOne sr = 0#1 ++ sr.attr.extractLsb' 4 3 ++ sr.char.extractLsb' 0 4 := by
  refine BitVec.eq_of_getLsbD_eq fun i hi => ?_
  simp only [cellOne, BitVec.getLsbD_or, BitVec.getLsbD_and, BitVec.getLsbD_append, BitVec.getLsbD_extractLsb']
  interval_cases i <;> simp

/-- The colour of a clear pixel of a bitmap cell, by its fields (R923). -/
theorem cellZero_eq_fields (sr : ShiftReg) :
    cellZero sr = 0#1 ++ sr.attr.extractLsb' 0 3 ++ sr.char.extractLsb' 4 4 := by
  refine BitVec.eq_of_getLsbD_eq fun i hi => ?_
  simp only [cellZero, BitVec.getLsbD_or, BitVec.getLsbD_and, BitVec.getLsbD_shiftLeft, BitVec.getLsbD_ushiftRight,
    BitVec.getLsbD_append, BitVec.getLsbD_extractLsb']
  interval_cases i <;> simp

/-- MC_BMP by the two bits of the pixel's pair (R924, R925). -/
theorem colourMcBmp_eq_bits (c : Chip) (j : Fin 4) :
    colourMcBmp c j =
      if c.vid.sr.bitmap.getLsbD (7 - 2 * (j.val / 2)) then
        (if c.vid.sr.bitmap.getLsbD (6 - 2 * (j.val / 2)) then c.bg 1 else cellOne c.vid.sr)
      else (if c.vid.sr.bitmap.getLsbD (6 - 2 * (j.val / 2)) then cellZero c.vid.sr else c.bg 0) := by
  unfold colourMcBmp
  rw [pixelPair_toNat]
  cases c.vid.sr.bitmap.getLsbD (7 - 2 * (j.val / 2)) <;> cases c.vid.sr.bitmap.getLsbD (6 - 2 * (j.val / 2)) <;> rfl

/-- MC_TEXT with bit 3 of `attr` set, by the two bits of the pixel's pair (R921, R925). -/
theorem colourMcText_eq_bits {c : Chip} (h : bit c.vid.sr.attr 3 = true) (j : Fin 4) :
    colourMcText c j =
      if c.vid.sr.bitmap.getLsbD (7 - 2 * (j.val / 2)) then
        (if c.vid.sr.bitmap.getLsbD (6 - 2 * (j.val / 2)) then c.vid.sr.attr &&& 0x77 else c.bg 2)
      else (if c.vid.sr.bitmap.getLsbD (6 - 2 * (j.val / 2)) then c.bg 1 else c.bg 0) := by
  unfold colourMcText
  rw [if_pos h, pixelPair_toNat]
  cases c.vid.sr.bitmap.getLsbD (7 - 2 * (j.val / 2)) <;> cases c.vid.sr.bitmap.getLsbD (6 - 2 * (j.val / 2)) <;> rfl

/-- MC_TEXT with bit 3 of `attr` clear: one bit a pixel (R921). -/
theorem colourMcText_eq_hires {c : Chip} (h : bit c.vid.sr.attr 3 = false) (j : Fin 4) :
    colourMcText c j = if c.vid.sr.bitmap.getLsbD (7 - j.val) then c.vid.sr.attr &&& 0x77 else c.bg 0 := by
  unfold colourMcText
  rw [if_neg (by simp [h])]
  rfl

/-- Settles O44: the pixel functions of the two text modes are the ones written out. -/
theorem textRenderers : Obligations.TextRenderers := by
  intro s
  refine ⟨fun h => ⟨?_, ?_⟩, fun k h => ⟨?_, ?_⟩⟩
  · exact chipStep_renderWith_mode s .text 0 _ rfl fun j => pixel_of_default h _ _ j
  · exact chipStep_renderWith_mode s .ecmText 0 _ rfl fun j => by
      rw [pixel_of_default h, ← bg_field_char]; rfl
  · exact chipStep_renderWith_mode s .text 0 _ rfl fun j => pixel_of_other h _ j
  · exact chipStep_renderWith_mode s .ecmText 0 _ rfl fun j => pixel_of_other h _ j

/-- Settles O45: multicolour text reads pairs or single pixels by bit 3 of `attr`, and the two bitmap modes the
two colours of their cell. -/
theorem bitmapAndMulticolourRenderers : Obligations.BitmapAndMulticolourRenderers := by
  intro s
  refine ⟨fun h => ⟨?_, ?_, ?_⟩, fun k h => ⟨?_, ?_, ?_⟩⟩
  · exact chipStep_renderWith_mode s .mcText 0 _ rfl fun j => by
      rw [pixel_of_default h]
      cases hattr : s.chip.vid.sr.attr.getLsbD 3 with
      | true => exact colourMcText_eq_bits hattr j
      | false => exact colourMcText_eq_hires hattr j
  · exact chipStep_renderWith_mode s .hiresBmp 0 _ rfl fun j => by
      rw [pixel_of_default h, ← cellOne_eq_fields, ← cellZero_eq_fields]; rfl
  · exact chipStep_renderWith_mode s .mcBmp 0 _ rfl fun j => by
      rw [pixel_of_default h, ← cellOne_eq_fields, ← cellZero_eq_fields]; exact colourMcBmp_eq_bits s.chip j
  · exact chipStep_renderWith_mode s .mcText 0 _ rfl fun j => pixel_of_other h _ j
  · exact chipStep_renderWith_mode s .hiresBmp 0 _ rfl fun j => pixel_of_other h _ j
  · exact chipStep_renderWith_mode s .mcBmp 0 _ rfl fun j => pixel_of_other h _ j

/-- Settles O46: INVALID groups are free values, blank is 0 and border the border colour. -/
theorem invalidBlankAndBorderRenderers : Obligations.InvalidBlankAndBorderRenderers := by
  intro s
  refine ⟨fun i hi => ?_, fun border mode => ⟨fun h => ?_, fun k h => ?_⟩, fun mode => ⟨fun h => ?_, fun k h => ?_⟩⟩
  · have hexec : exec i s = s.chipStep fun c => renderWith (.mode .invalid) c.seq.phase c := by
      simp only [List.mem_cons, List.not_mem_nil, or_false] at hi
      obtain rfl | rfl | rfl := hi <;> rfl
    rw [hexec]
    exact ⟨fun h => chipStep_renderWith_mode s .invalid 4 _ rfl fun j => pixel_of_default h _ _ j,
      fun k h => chipStep_renderWith_mode s .invalid 4 _ rfl fun j => pixel_of_other h _ j⟩
  · refine (chipStep_renderWith_blank s).trans ?_
    simp only [pixel_of_default h]
    rfl
  · refine (chipStep_renderWith_blank s).trans ?_
    simp only [pixel_of_other h]
    rfl
  · refine (chipStep_renderWith_border s).trans ?_
    simp only [pixel_of_default h]
    rfl
  · refine (chipStep_renderWith_border s).trans ?_
    simp only [pixel_of_other h]
    rfl

end Sys2Proof.Proofs

/-! # Proofs: what every operation keeps of the state of 10_state.md -/

namespace Sys2Proof.Proofs

open Sys2Proof.Machine Sys2Proof.Laws

/-! ## Good states -/

/-! ### The parts of a good state -/

theorem chipOk_iff (c : Chip) :
    chipOk c = true ↔ c.mem.wf = true ∧ partsOk c.cfg c.rf c.seq c.vid c.snd = true := by
  simp only [chipOk, Bool.and_eq_true]

theorem good_iff (s : State) :
    Good s = true ↔ s.chip.cfg.valid = true ∧ chipOk s.chip = true ∧
      ∀ k ∈ s.host.snapshots, snapshotOk s.chip.cfg k = true := by
  simp only [Good, Bool.and_eq_true, List.all_eq_true, and_assoc]

/-- The chip's own operations keep a good chip good. -/
theorem chipOk_of_evolves {c c' : Chip} (h : Evolves c c') (hv : c.cfg.valid = true) (hok : chipOk c = true) :
    chipOk c' = true := by
  obtain ⟨hwf, hparts⟩ := (chipOk_iff c).1 hok
  exact (chipOk_iff c').2 ⟨h.mem.wf hwf, h.parts hv hparts⟩

/-- A good chip whose storage is exchanged for one in canonical form is good. -/
theorem chipOk_setMem {c : Chip} {m : Memory} (hok : chipOk c = true) (hm : m.wf = true) :
    chipOk { c with mem := m } = true :=
  (chipOk_iff _).2 ⟨hm, ((chipOk_iff c).1 hok).2⟩

/-! ### The host calls on the chip -/

theorem evolves_drewAlloc (s : State) : Evolves s.chip s.drewAlloc.chip := by
  unfold State.drewAlloc
  split
  · exact .refl _
  · exact evolves_drew _ 1

theorem evolves_drewReset (s : State) : Evolves s.chip s.drewReset.chip := by
  unfold State.drewReset
  split
  · exact .refl _
  · exact evolves_drew _ 1

/-- What configureRAM can do to the chip: a draw, and the storage configured anew or nothing more. -/
theorem execHostConfigureRAM_chip_cases {size : Int} {fp : Nat} {s t : State}
    (h : execHostConfigureRAM size fp s = .next t) :
    ∃ c, Evolves s.chip c ∧
      (t.chip = c ∨ t.chip = { c with mem := configuredMem c.cfg (roundRam size) fp c.mem }) := by
  unfold execHostConfigureRAM at h
  dsimp only at h
  split_ifs at h <;> cases h
  · exact ⟨_, evolves_drewAlloc s, .inr rfl⟩
  · exact ⟨_, evolves_drewAlloc s, .inl rfl⟩
  · exact ⟨_, .refl _, .inr rfl⟩

theorem chipOk_execHostConfigureRAM {size : Int} {fp : Nat} {s t : State} (hv : s.chip.cfg.valid = true)
    (hok : chipOk s.chip = true) (h : execHostConfigureRAM size fp s = .next t) : chipOk t.chip = true := by
  obtain ⟨c, hevolves, ht⟩ := execHostConfigureRAM_chip_cases h
  have hc : chipOk c = true := chipOk_of_evolves hevolves hv hok
  have hcv : c.cfg.valid = true := hevolves.cfg ▸ hv
  obtain rfl | ht := ht
  · exact hc
  · rw [ht]
    exact chipOk_setMem hc (wf_configured hcv (roundRam_mem size) fp ((chipOk_iff c).1 hc).1)

theorem chipOk_loadRom (bank offset length : Int) (bytes : Option (List Byte)) {c : Chip} (hv : c.cfg.valid = true)
    (hok : chipOk c = true) : chipOk (loadRom bank offset length bytes c) = true := by
  obtain ⟨hwf, hparts⟩ := (chipOk_iff c).1 hok
  have hmem := wf_loadRom bank offset length bytes c hv hwf
  rw [loadRom_eq]
  exact (chipOk_iff _).2 ⟨hmem, hparts⟩

theorem chipOk_execHostRun {ticks : Int} {s t : State} (hv : s.chip.cfg.valid = true) (hok : chipOk s.chip = true)
    (h : execHostRun ticks s = .next t) : chipOk t.chip = true := by
  unfold execHostRun at h
  split_ifs at h <;> cases h
  · exact hok
  · exact chipOk_of_evolves (evolves_runBudget _ _) hv hok

/-- The decay counter of a drawn channel is brought into its range (R160). -/
theorem boundedChannel_decay_le (p : Params) (ch : Channel) : (boundedChannel p ch).decay ≤ p.decayTicks :=
  Nat.min_le_right _ _

theorem lfsrSeed_lt {p : Params} (h : p.valid = true) : p.lfsrSeed < 2 ^ p.lfsrWidth := by
  simp only [Params.valid, Bool.and_eq_true, decide_eq_true_eq] at h
  exact h.1.1.1.1.1.1.1.1.1.2

/-- The elements that a reset sets are in their ranges, whatever is drawn (R1202). -/
theorem partsOk_afterReset {p : Params} (hv : p.valid = true) (d : ResetDraws) :
    partsOk p (regFileAfterReset d) (sequencerAfterReset p d) (videoAfterReset d) (soundAfterReset p d) = true := by
  have hstandard : standardOk (regFileAfterReset d) (sequencerAfterReset p d) = true := beq_self_eq_true _
  have hsound : soundOk p (soundAfterReset p d) = true := by
    simp only [soundOk, Bool.and_eq_true, decide_eq_true_eq]
    exact ⟨⟨⟨boundedChannel_decay_le p _, boundedChannel_decay_le p _⟩, lfsrSeed_lt hv⟩, Nat.zero_le _⟩
  have hmasks : masksOk (regFileAfterReset d) = true := by simp [masksOk, maskOk, regFileAfterReset]
  have hvideo : videoOk p (videoAfterReset d) = true := rfl
  simp only [partsOk, hmasks, hstandard, hvideo, hsound, Bool.and_self]

theorem evolves_notifyStandard (before : Bool) (c : Chip) : Evolves c (notifyStandard before c) := by
  unfold notifyStandard
  split
  · exact .refl c
  · exact evolves_emit c _

theorem chipOk_resetChip (cold : Bool) (d : ResetDraws) {c : Chip} (hv : c.cfg.valid = true) (hok : chipOk c = true) :
    chipOk (resetChip cold d c) = true := by
  have hset : chipOk (c.afterReset d) = true :=
    (chipOk_iff _).2 ⟨((chipOk_iff c).1 hok).1, partsOk_afterReset hv d⟩
  have hram : chipOk (coldRamReset cold (c.afterReset d)) = true := by
    unfold coldRamReset
    split
    · exact chipOk_setMem hset (wf_refill ((chipOk_iff _).1 hset).1)
    · exact hset
  have hcfg : (coldRamReset cold (c.afterReset d)).cfg = c.cfg := by
    unfold coldRamReset
    split <;> rfl
  exact chipOk_of_evolves ((evolves_notifyStandard _ _).trans (evolves_emit _ _)) (hcfg ▸ hv) hram

/-- A good chip is still good once a snapshot that fits its parameters is loaded (R1211). -/
theorem chipOk_restore {c : Chip} {k : Snapshot} (hok : chipOk c = true) (hk : snapshotOk c.cfg k = true) :
    chipOk (c.restore k) = true := by
  simp only [snapshotOk, Bool.and_eq_true] at hk
  obtain ⟨⟨hram, -⟩, hparts⟩ := hk
  exact (chipOk_iff _).2 ⟨wf_withRam ((chipOk_iff c).1 hok).1 hram, hparts⟩

theorem chipOk_execHostLoadState {k : Nat} {s t : State} (hs : Good s = true)
    (h : execHostLoadState k s = .next t) : chipOk t.chip = true := by
  obtain ⟨-, hok, hsnaps⟩ := (good_iff s).1 hs
  unfold execHostLoadState at h
  split at h
  next => cases h
  next snap hget =>
    cases h
    exact chipOk_restore hok (hsnaps snap (List.mem_of_getElem? hget))

/-- Every operation on a good state leaves a good chip. -/
theorem exec_chipOk (i : Instr) {s t : State} (hs : Good s = true) (h : exec i s = .next t) : chipOk t.chip = true := by
  obtain ⟨hv, hok, -⟩ := (good_iff s).1 hs
  have hevolves : ∀ {c'}, Evolves s.chip c' → chipOk c' = true := fun he => chipOk_of_evolves he hv hok
  by_cases hf : (encode i).fmt = .host
  · cases i with
    | hostConfigureRAM => exact chipOk_execHostConfigureRAM hv hok h
    | hostLoadROM => cases h; exact chipOk_loadRom _ _ _ _ hv hok
    | hostResolve | hostGetSegmentKind | hostSaveState | hostRegisterCallback => cases h; exact hok
    | hostRun => exact chipOk_execHostRun hv hok h
    | hostReset cold =>
      cases h
      exact chipOk_resetChip cold _ ((evolves_drewReset s).cfg ▸ hv) (hevolves (evolves_drewReset s))
    | hostLoadState => exact chipOk_execHostLoadState hs h
    | hostWriteRegister => cases h; exact hevolves (evolves_writeRule _ _ _ _)
    | hostReadRegister => cases h; exact hevolves (evolves_drewOnRead _ _)
    | hostReservedB | hostReservedC | hostReservedD | hostReservedE | hostReservedF =>
      cases h; exact hevolves (evolves_refuse _)
    | _ => cases hf
  · obtain ⟨f, hexec, he⟩ := exec_evolves i s hf
    rw [hexec] at h
    cases h
    exact hevolves he

/-! ### The snapshots that the host holds -/

@[simp] theorem drewAlloc_snapshots (s : State) : s.drewAlloc.host.snapshots = s.host.snapshots := by
  unfold State.drewAlloc
  split <;> rfl

@[simp] theorem drewReset_snapshots (s : State) : s.drewReset.host.snapshots = s.host.snapshots := by
  unfold State.drewReset
  split <;> rfl

/-- The memory part of a snapshot holds RAM segments only (R1210). -/
theorem ramOnly_ramPart {m : Memory} (hm : m.wf = true) : ramOnly m.ramPart = true := by
  obtain ⟨hsegs, -, -, -⟩ := (wf_iff _).1 (wf_ramPart hm)
  refine (all_iff hsegs fun e => e.2.isRam).2 fun i g hg => ?_
  have hseg : m.ramPart.seg i = some g := hg
  rw [ramPart_seg] at hseg
  split at hseg
  next hram => simpa only [Memory.isRam, hseg, Option.map_some, Option.getD_some] using hram
  next => cases hseg

theorem snapshotOk_snapshotOf {s : State} (hok : chipOk s.chip = true) :
    snapshotOk s.chip.cfg (snapshotOf s) = true := by
  obtain ⟨hwf, hparts⟩ := (chipOk_iff _).1 hok
  simp only [snapshotOk, Bool.and_eq_true]
  exact ⟨⟨wf_ramPart hwf, ramOnly_ramPart hwf⟩, hparts⟩

/-- The snapshots held stay as they are, but for saveState, which adds one of the present state (R1210). -/
theorem exec_snapshots_cases (i : Instr) {s t : State} (h : exec i s = .next t) :
    t.host.snapshots = s.host.snapshots ∨ t.host.snapshots = s.host.snapshots ++ [snapshotOf s] := by
  by_cases hf : (encode i).fmt = .host
  · cases i with
    | hostSaveState => cases h; exact .inr rfl
    | hostConfigureRAM =>
      simp only [exec, execHostConfigureRAM] at h
      split_ifs at h <;> cases h <;> exact .inl (by simp)
    | hostRun =>
      simp only [exec, execHostRun] at h
      split_ifs at h <;> cases h <;> exact .inl rfl
    | hostReset => cases h; exact .inl (by simp)
    | hostLoadState =>
      simp only [exec, execHostLoadState] at h
      split at h <;> cases h
      exact .inl rfl
    | hostLoadROM | hostResolve | hostGetSegmentKind | hostRegisterCallback | hostWriteRegister | hostReadRegister
    | hostReservedB | hostReservedC | hostReservedD | hostReservedE | hostReservedF => cases h; exact .inl rfl
    | _ => cases hf
  · obtain ⟨f, hexec, -⟩ := exec_evolves i s hf
    rw [hexec] at h
    cases h
    exact .inl rfl

theorem exec_snapshotsOk (i : Instr) {s t : State} (hs : Good s = true) (h : exec i s = .next t) :
    ∀ k ∈ t.host.snapshots, snapshotOk s.chip.cfg k = true := by
  obtain ⟨-, hok, hsnaps⟩ := (good_iff s).1 hs
  obtain heq | heq := exec_snapshots_cases i h
  · rw [heq]; exact hsnaps
  · intro k hk
    rw [heq, List.mem_append, List.mem_singleton] at hk
    obtain hk | rfl := hk
    · exact hsnaps k hk
    · exact snapshotOk_snapshotOf hok

/-- Every operation keeps good states good. -/
theorem exec_good (i : Instr) {s t : State} (hs : Good s = true) (h : exec i s = .next t) : Good t = true := by
  have hcfg : t.chip.cfg = s.chip.cfg := (exec_keepsRecord i h).cfg
  rw [good_iff, hcfg]
  exact ⟨((good_iff s).1 hs).1, exec_chipOk i hs h, exec_snapshotsOk i hs h⟩

/-- Settles O6: a step is one operation or nothing, and a good state is good whatever is queued. -/
theorem stepKeepsGoodStates : Obligations.StepKeepsGoodStates := by
  intro s t hs h
  obtain ⟨-, rfl⟩ | ⟨-, rest, i, -, hexec⟩ := step_cases h
  · exact hs
  · exact exec_good (s := s.withQueue rest) i hs hexec

/-! ## The callbacks -/

@[simp] theorem drewReset_callbacks (s : State) : s.drewReset.chip.callbacks = s.chip.callbacks :=
  (evolves_drewReset s).callbacks

@[simp] theorem coldRamReset_callbacks (cold : Bool) (c : Chip) : (coldRamReset cold c).callbacks = c.callbacks := by
  unfold coldRamReset
  split <;> rfl

@[simp] theorem resetChip_callbacks (cold : Bool) (d : ResetDraws) (c : Chip) :
    (resetChip cold d c).callbacks = c.callbacks := by
  have hnotify := (evolves_notifyStandard c.seq.ntsc (coldRamReset cold (c.afterReset d))).callbacks
  rw [resetChip, emit_callbacks, hnotify, coldRamReset_callbacks]
  rfl

theorem execHostConfigureRAM_callbacks {size : Int} {fp : Nat} {s t : State}
    (h : execHostConfigureRAM size fp s = .next t) : t.chip.callbacks = s.chip.callbacks := by
  obtain ⟨c, hevolves, ht | ht⟩ := execHostConfigureRAM_chip_cases h <;> rw [ht] <;> exact hevolves.callbacks

theorem execHostRun_callbacks {ticks : Int} {s t : State} (h : execHostRun ticks s = .next t) :
    t.chip.callbacks = s.chip.callbacks := by
  unfold execHostRun at h
  split_ifs at h <;> cases h
  · rfl
  · exact (evolves_runBudget _ _).callbacks

/-- A snapshot holds no callbacks: loadState leaves the chip's (R1211). -/
theorem execHostLoadState_callbacks {k : Nat} {s t : State} (h : execHostLoadState k s = .next t) :
    t.chip.callbacks = s.chip.callbacks := by
  unfold execHostLoadState at h
  split at h <;> cases h
  rfl

/-- No operation but registerCallback changes the callbacks (R171). -/
theorem exec_callbacks (i : Instr) {s t : State} (h : exec i s = .next t)
    (hi : ∀ cb ud, i ≠ .hostRegisterCallback cb ud) : t.chip.callbacks = s.chip.callbacks := by
  by_cases hf : (encode i).fmt = .host
  · cases i with
    | hostRegisterCallback cb ud => exact absurd rfl (hi cb ud)
    | hostConfigureRAM => exact execHostConfigureRAM_callbacks h
    | hostLoadROM => cases h; rw [returns_chip, onChip_chip, loadRom_eq]
    | hostRun => exact execHostRun_callbacks h
    | hostReset cold =>
      cases h
      exact (resetChip_callbacks cold _ _).trans (drewReset_callbacks s)
    | hostLoadState => exact execHostLoadState_callbacks h
    | hostWriteRegister => cases h; exact (evolves_writeRule _ _ _ _).callbacks
    | hostReadRegister => cases h; exact (evolves_drewOnRead _ _).callbacks
    | hostResolve | hostGetSegmentKind | hostSaveState
    | hostReservedB | hostReservedC | hostReservedD | hostReservedE | hostReservedF => cases h; rfl
    | _ => cases hf
  · obtain ⟨f, hexec, he⟩ := exec_evolves i s hf
    rw [hexec] at h
    cases h
    exact he.callbacks

/-- The callbacks of a phase stand in the trace newest first, and nothing else of the chip changes (R850). -/
theorem runCallbacks_eq (p : Phase) (l : List (Nat × Nat)) (c : Chip) :
    runCallbacks p l c = { c with
      trace := (l.map fun e => Event.callback e.1 e.2 p c.seq.column).reverse ++ c.trace } := by
  induction l generalizing c with
  | nil => rfl
  | cons e l ih =>
    rw [runCallbacks, ih, List.map_cons, List.reverse_cons, List.append_assoc]
    rfl

/-- Settles O10: registerCallback appends its pair, no other operation has one to add, and step 3 of a phase emits the
calls of the list as it stands. -/
theorem callbackRegistrationAndCalls : Obligations.CallbackRegistrationAndCalls := by
  refine ⟨fun i s t h => ?_, fun p c => runCallbacks_eq p c.callbacks c⟩
  split
  next cb ud => cases h; rfl
  next hi => exact exec_callbacks i h hi

/-! ## run(): where it stops -/

/-! ### The carry -/

theorem cycleTicks_pos (ntsc : Bool) : 0 < cycleTicks ntsc := by cases ntsc <;> decide

theorem runLoop_of_nonpos (fuel : Nat) {b : Int} (c : Chip) (h : b ≤ 0) : runLoop fuel b c = (b, c) := by
  cases fuel with
  | zero => rfl
  | succ n => rw [runLoop, if_neg (by omega)]

theorem runLoop_of_pos (fuel : Nat) {b : Int} (c : Chip) (h : 0 < b) :
    runLoop (fuel + 1) b c = runLoop fuel (b - cycleTicks c.seq.ntsc) (cycle c) := by
  rw [runLoop, if_pos h]

/-- A positive budget that the fuel covers runs at least one cycle, and the last of them uses the budget up. -/
theorem runLoop_cycles (fuel : Nat) {b : Int} (c : Chip) (hpos : 0 < b) (hfuel : b ≤ fuel) :
    ∃ j : Nat, (runLoop fuel b c).2 = cycle^[j + 1] c ∧ (runLoop fuel b c).1 ≤ 0 ∧
      -cycleTicks (cycle^[j] c).seq.ntsc < (runLoop fuel b c).1 := by
  induction fuel generalizing b c with
  | zero => omega
  | succ n ih =>
    have hticks := cycleTicks_pos c.seq.ntsc
    rw [runLoop_of_pos n c hpos]
    by_cases hmore : 0 < b - cycleTicks c.seq.ntsc
    · obtain ⟨j, hchip, hcarry⟩ := ih (cycle c) hmore (by omega)
      exact ⟨j + 1, hchip, hcarry⟩
    · rw [runLoop_of_nonpos n (cycle c) (by omega)]
      refine ⟨0, rfl, by omega, ?_⟩
      change -cycleTicks c.seq.ntsc < b - cycleTicks c.seq.ntsc
      omega

theorem runBudget_of_nonpos {b : Int} (c : Chip) (h : b ≤ 0) : runBudget b c = (b, c) := runLoop_of_nonpos _ c h

theorem runBudget_cycles {b : Int} (c : Chip) (h : 0 < b) :
    ∃ j : Nat, (runBudget b c).2 = cycle^[j + 1] c ∧ (runBudget b c).1 ≤ 0 ∧
      -cycleTicks (cycle^[j] c).seq.ntsc < (runBudget b c).1 :=
  runLoop_cycles _ c h (by omega)

/-- The carry is at most 0 (R801). -/
theorem runBudget_carry_nonpos (b : Int) (c : Chip) : (runBudget b c).1 ≤ 0 := by
  by_cases hpos : 0 < b
  · obtain ⟨j, -, hcarry, -⟩ := runBudget_cycles c hpos
    exact hcarry
  · rw [runBudget_of_nonpos c (by omega)]
    exact Int.not_lt.1 hpos

/-- What a cycle keeps, run() keeps. -/
theorem runBudget_induction {P : Chip → Prop} (hcycle : ∀ c, P c → P (cycle c)) (b : Int) {c : Chip} (h : P c) :
    P (runBudget b c).2 := by
  by_cases hpos : 0 < b
  · obtain ⟨j, hchip, -, -⟩ := runBudget_cycles c hpos
    rw [hchip]
    exact Function.Iterate.rec P h hcycle (j + 1)
  · rw [runBudget_of_nonpos c (by omega)]
    exact h

/-! ### What leaves the sequencer alone -/

@[simp] theorem flushCheck_seq (c : Chip) : (flushCheck c).seq = c.seq := by
  unfold flushCheck
  split <;> rfl

@[simp] theorem emitGroup_seq (sel : RenderSel) (rem : Nat) (g : Group) (c : Chip) :
    (emitGroup sel rem g c).seq = c.seq :=
  flushCheck_seq _

@[simp] theorem renderStep_seq (p : Phase) (c : Chip) : (renderStep p c).seq = c.seq := emitGroup_seq _ _ _ c

@[simp] theorem updateTimer1_seq (c : Chip) : (updateTimer1 c).seq = c.seq := by
  unfold updateTimer1
  split_ifs <;> rfl

@[simp] theorem updateTimer2_seq (c : Chip) : (updateTimer2 c).seq = c.seq := by
  unfold updateTimer2
  split_ifs <;> rfl

@[simp] theorem updateTimer3_seq (c : Chip) : (updateTimer3 c).seq = c.seq := by
  unfold updateTimer3
  split_ifs <;> rfl

@[simp] theorem interruptCheck_seq (c : Chip) : c.interruptCheck.seq = c.seq := by
  unfold Chip.interruptCheck
  split <;> rfl

@[simp] theorem callbackStep_seq (p : Phase) (c : Chip) : (callbackStep p c).seq = c.seq := by
  rw [callbackStep, runCallbacks_eq]

@[simp] theorem memWrite_seq (a : Addr) (v : Byte) (c : Chip) : (memWrite a v c).seq = c.seq := by
  obtain ⟨i, off, -, -, heq⟩ | ⟨-, heq⟩ := memWrite_cases a v c <;> rw [heq]

@[simp] theorem drewOnRead_seq (o : Fin 32) (c : Chip) : (drewOnRead o c).seq = c.seq := by
  unfold drewOnRead
  split <;> rfl

@[simp] theorem cpuReadReg_seq (o : Fin 32) (c : Chip) : (cpuReadReg o c).seq = c.seq := drewOnRead_seq o _

@[simp] theorem ioRead_seq (a : Addr) (c : Chip) : (ioRead a c).seq = c.seq := by
  have hanswer : ∀ x, (ioDeliver a c x).seq = c.seq := fun x => by cases x <;> rfl
  unfold ioRead
  split
  · rfl
  · exact hanswer _

/-- A CPU read leaves the sequencer. -/
@[simp] theorem busRead_seq (a : Addr) (c : Chip) : (busRead a c).seq = c.seq := by
  unfold busRead
  split_ifs
  · exact cpuReadReg_seq _ c
  · exact ioRead_seq a c
  · rfl

@[simp] theorem cpuMemWrite_seq (a : Addr) (v : Byte) (c : Chip) : (cpuMemWrite a v c).seq = c.seq :=
  memWrite_seq a v _

@[simp] theorem ioWrite_seq (a : Addr) (v : Byte) (c : Chip) : (ioWrite a v c).seq = c.seq := by
  unfold ioWrite
  split
  · exact cpuMemWrite_seq a v c
  · rw [drew_seq]
    split
    · rfl
    · exact cpuMemWrite_seq a v c

@[simp] theorem dmaFetch_seq (c : Chip) : (dmaFetch c).seq = c.seq := by
  unfold dmaFetch
  split_ifs <;> rfl

@[simp] theorem bitmapFetch_seq (c : Chip) : (bitmapFetch c).seq = c.seq := by
  unfold bitmapFetch
  split_ifs <;> rfl

@[simp] theorem dacStep_seq (c : Chip) : (dacStep c).seq = c.seq := by
  unfold dacStep
  split <;> rfl

@[simp] theorem soundTick_seq (c : Chip) : (soundTick c).seq = c.seq := by
  have hchannels : (stepChannels c).seq = c.seq := by
    unfold stepChannels
    split <;> rfl
  exact hchannels

@[simp] theorem soundStep_seq (c : Chip) : (soundStep c).seq = c.seq := by
  unfold soundStep
  split
  · exact soundTick_seq c
  · rfl

/-- The end of a cycle counts the prescaler and leaves the rest of the sequencer (R803). -/
theorem cycleEnd_seq (c : Chip) :
    (cycleEnd c).seq = { c.seq with sndPrescale := c.seq.sndPrescale + 1 } := by
  rw [cycleEnd, soundStep_seq, advancePrescale, dacStep_seq]

/-! ### What leaves the column alone -/

@[simp] theorem setStandard_column (n : Bool) (c : Chip) : (setStandard n c).seq.column = c.seq.column := by
  unfold setStandard
  split <;> rfl

@[simp] theorem schedule_seq (c : Chip) (p : Phase) (b : Nat) (d : Delay) : (c.schedule p b d).seq = c.seq :=
  setEvMask_seq c _ _

theorem writeControl1_column (p : Phase) (v : Byte) (c : Chip) : (writeControl1 p v c).seq.column = c.seq.column := by
  simp only [writeControl1]
  split <;> simp

theorem writeControl2_column (p : Phase) (v : Byte) (c : Chip) : (writeControl2 p v c).seq.column = c.seq.column := by
  simp only [writeControl2]
  split <;> simp

/-- No register write moves the column: a written position waits for its micro-operation (R540). The cases named are those
of 0x06 and 0x07 and of the four delayed offsets, which schedule. -/
@[simp] theorem writeRule_column (p : Phase) (o : Fin 32) (v : Byte) (c : Chip) :
    (writeRule p o v c).seq.column = c.seq.column := by
  unfold writeRule
  split
  case h_7 => exact writeControl1_column p v c
  case h_8 => exact writeControl2_column p v c
  case h_27 => rw [writeCposReloadHi, schedule_seq]
  case h_28 => rw [writeCposReloadLo, schedule_seq]
  case h_31 => rw [writeHpos, schedule_seq]
  case h_32 => rw [writeVsub, schedule_seq]
  all_goals rfl

@[simp] theorem busWrite_column (a : Addr) (v : Byte) (c : Chip) : (busWrite a v c).seq.column = c.seq.column := by
  unfold busWrite
  split_ifs
  · exact writeRule_column _ _ v _
  · rfl
  · rfl
  · rfl
  · rw [ioWrite_seq]
  · rw [cpuMemWrite_seq]

@[simp] theorem cpuStepHigh_column (c : Chip) : (cpuStepHigh c).seq.column = c.seq.column := by
  simp only [cpuStepHigh]
  split <;> simp

@[simp] theorem cpuStepLow_column (c : Chip) : (cpuStepLow c).seq.column = c.seq.column := by
  simp only [cpuStepLow]
  split <;> simp

@[simp] theorem evenBusStep_column (c : Chip) : (evenBusStep c).seq.column = c.seq.column := by
  unfold evenBusStep
  split <;> simp

@[simp] theorem oddBusStep_column (c : Chip) : (oddBusStep c).seq.column = c.seq.column := by
  unfold oddBusStep
  split_ifs
  · rfl
  · rw [bitmapFetch_seq]
  · split <;> simp

@[simp] theorem loadShiftReg_column (c : Chip) : (loadShiftReg c).seq.column = c.seq.column := by
  unfold loadShiftReg
  split <;> rfl

theorem transition_column (t : Transition) (p : Phase) (c : Chip) : (t.apply p c).seq.column = c.seq.column := by
  cases t with
  | lineIncrement =>
    simp only [Transition.apply, scheduleLine]
    split <;> simp
  | _ => rfl

/-- No transition moves the column (R121, log 4). -/
@[simp] theorem columnTransitions_column (p : Phase) (c : Chip) :
    (columnTransitions p c).seq.column = c.seq.column := by
  rw [columnTransitions]
  generalize columnTable p c = ts
  induction ts generalizing c with
  | nil => rfl
  | cons t ts ih => exact (ih (t.apply p c)).trans (transition_column t p c)

/-! ### The parity of the column -/

/-- The parity of the columns of a phase (R121). -/
def columnParity : Phase → Nat
  | .even => 0
  | .odd => 1

/-- The column has the parity of the phase `p`, under admissible parameters. -/
def ColumnIn (p : Phase) (c : Chip) : Prop := c.cfg.valid = true ∧ c.seq.column.val % 2 = columnParity p

theorem ColumnIn.of_evolves {p : Phase} {c c' : Chip} (h : ColumnIn p c) (he : Evolves c c')
    (hcol : c'.seq.column = c.seq.column) : ColumnIn p c' := by
  obtain ⟨hv, hpar⟩ := h
  exact ⟨he.cfg ▸ hv, hcol ▸ hpar⟩

theorem hposOk_of_valid {p : Params} (h : p.valid = true) : hposOk p = true := by
  simp only [Params.valid, Bool.and_eq_true] at h
  exact h.1.1.1.1.1.2

/-- A column that the sequencer has, written in a phase, has the parity of the phase (R121, R740). -/
theorem hposWrite_parity {p : Params} (hv : p.valid = true) (v : Byte) (ph : Phase) (h : p.hposWrite v ph < 114) :
    p.hposWrite v ph % 2 = columnParity ph := by
  have hok := hposOk_of_valid hv
  simp only [hposOk, Bool.and_eq_true, Bool.or_eq_true, decide_eq_true_eq, List.all_eq_true] at hok
  obtain ⟨⟨⟨⟨-, hlenEven⟩, hlenOdd⟩, heven⟩, hodd⟩ := hok
  have hval := v.isLt
  cases ph with
  | even =>
    have hentry := heven (p.hposWrite v .even) (by
      rw [Params.hposWrite, List.getD_eq_getElem _ _ (by omega)]; exact List.getElem_mem _)
    simp only [columnParity]; omega
  | odd =>
    have hentry := hodd (p.hposWrite v .odd) (by
      rw [Params.hposWrite, List.getD_eq_getElem _ _ (by omega)]; exact List.getElem_mem _)
    simp only [columnParity]; omega

theorem loadHpos_columnIn (p : Phase) {c : Chip} (h : ColumnIn p c) : ColumnIn p (loadHpos p c) := by
  have hcfg := (evolves_loadHpos p c).cfg
  obtain ⟨hv, hpar⟩ := h
  refine ⟨hcfg ▸ hv, ?_⟩
  unfold loadHpos
  split
  next => exact hpar
  next v _ =>
    dsimp only
    split
    next hlt => exact hposWrite_parity hv v p hlt
    next => exact hpar

theorem applyPend1A_seq (c : Chip) : (applyPend1A c).seq = c.seq := by
  unfold applyPend1A
  split <;> rfl

theorem applyPend1B_seq (c : Chip) : (applyPend1B c).seq = c.seq := by
  unfold applyPend1B
  split <;> rfl

theorem loadCposReload_seq (c : Chip) : (loadCposReload c).seq = c.seq :=
  (applyPend1B_seq _).trans (applyPend1A_seq c)

theorem loadVsub_column (c : Chip) : (loadVsub c).seq.column = c.seq.column := by
  unfold loadVsub
  split <;> rfl

theorem verticalWindow_column (c : Chip) : (verticalWindow c).seq.column = c.seq.column := by
  unfold verticalWindow
  dsimp only
  split_ifs <;> rfl

theorem frameStart_column (c : Chip) : (frameStart c).seq.column = c.seq.column := by
  unfold frameStart
  split <;> rfl

theorem compareRaster_seq (c : Chip) : (compareRaster c).seq = c.seq := by
  unfold compareRaster
  split <;> rfl

theorem defaultIncLine_column (c : Chip) : (defaultIncLine c).seq.column = c.seq.column := by
  rw [defaultIncLine, compareRaster_seq, frameStart_column, verticalWindow_column]

theorem incrementLine_column (x : LineIncrement) (c : Chip) : (c.incrementLine x).seq.column = c.seq.column := by
  unfold Chip.incrementLine
  dsimp only
  split <;> rfl

theorem incVideoLine_column (c : Chip) : (incVideoLine c).seq.column = c.seq.column := by
  unfold incVideoLine
  split
  · exact defaultIncLine_column c
  · exact incrementLine_column _ c

theorem updateVsub_column (c : Chip) : (updateVsub c).seq.column = c.seq.column := by
  unfold updateVsub
  split
  · unfold defaultVsubUpdate
    dsimp only
    split_ifs <;> rfl
  · rfl

theorem stopDma_column (c : Chip) : (stopDma c).seq.column = c.seq.column := by
  unfold stopDma
  dsimp only
  split <;> rfl

/-- Only EV_LOAD_HPOS moves the column (R740). -/
theorem microOp_column (p : Phase) {b : Nat} (c : Chip) (hb : b ≠ 0) : (microOp p b c).seq.column = c.seq.column := by
  unfold microOp
  split
  · exact absurd rfl hb
  · rw [loadCposReload_seq]
  · exact loadVsub_column c
  · exact incVideoLine_column c
  · exact updateVsub_column c
  · rfl
  · exact stopDma_column c
  · rfl

theorem microOp_columnIn (p : Phase) (b : Nat) {c : Chip} (h : ColumnIn p c) : ColumnIn p (microOp p b c) := by
  by_cases hb : b = 0
  · rw [hb]
    exact loadHpos_columnIn p h
  · exact h.of_evolves (evolves_microOp p b c) (microOp_column p c hb)

theorem runEvents_columnIn (p : Phase) (m : BitVec 32) (bs : List Nat) {c : Chip} (h : ColumnIn p c) :
    ColumnIn p (runEvents p m bs c) := by
  induction bs generalizing c with
  | nil => exact h
  | cons b bs ih =>
    refine ih ?_
    split
    · exact microOp_columnIn p b h
    · exact h

theorem dispatch_columnIn (p : Phase) {c : Chip} (h : ColumnIn p c) : ColumnIn p (dispatch p c) :=
  runEvents_columnIn p _ _ <| h.of_evolves (evolves_setEvMask c p 0 fun _ => rfl) (by rw [setEvMask_seq])

theorem beginPhase_columnIn (p : Phase) {c : Chip} (h : ColumnIn p c) : ColumnIn p (beginPhase p c) := by
  have hphase : ColumnIn p { c with seq.phase := p } := h
  refine (dispatch_columnIn p hphase).of_evolves
    ((evolves_applyTransitions p _ _).trans (evolves_callbackStep p _)) ?_
  rw [beginPhase, callbackStep_seq, columnTransitions_column]

/-- The next column, modulo the even count of columns, has the other parity (R802). -/
theorem endPhase_columnIn (p : Phase) {c : Chip} (h : ColumnIn p c) : ColumnIn p.other (endPhase p c) := by
  obtain ⟨hv, hpar⟩ := h
  refine ⟨hv, ?_⟩
  have hnext : (nextColumn c.seq.column).val % 2 = (c.seq.column.val + 1) % 2 := by
    unfold nextColumn
    split
    · rfl
    · have := c.seq.column.isLt
      change 0 % 2 = _
      omega
  change (nextColumn c.seq.column).val % 2 = _
  cases p <;> simp only [columnParity, Phase.other] at hpar ⊢ <;> omega

theorem phaseEven_columnIn {c : Chip} (h : ColumnIn .even c) : ColumnIn .odd (phaseEven c) :=
  endPhase_columnIn .even <| (beginPhase_columnIn .even h).of_evolves
    ((((evolves_evenBusStep _).trans (evolves_emitGroup _ _ _ _)).trans (evolves_updateTimer1 _)).trans
      (evolves_interruptCheck _))
    (by simp only [interruptCheck_seq, updateTimer1_seq, renderStep_seq, evenBusStep_column])

theorem phaseOdd_columnIn {c : Chip} (h : ColumnIn .odd c) : ColumnIn .even (phaseOdd c) :=
  endPhase_columnIn .odd <| (beginPhase_columnIn .odd h).of_evolves
    (((((evolves_oddBusStep _).trans (evolves_emitGroup _ _ _ _)).trans (evolves_loadShiftReg _)).trans
      (evolves_updateTimer2 _)).trans (evolves_updateTimer3 _))
    (by simp only [updateTimer3_seq, updateTimer2_seq, loadShiftReg_column, renderStep_seq, oddBusStep_column])

/-- A cycle takes an EVEN column to an EVEN column (R121, R802). -/
theorem cycle_columnIn {c : Chip} (h : ColumnIn .even c) : ColumnIn .even (cycle c) :=
  (phaseOdd_columnIn (phaseEven_columnIn h)).of_evolves (evolves_cycleEnd _) (by rw [cycle, cycleEnd_seq])

/-- A cycle ends before an EVEN phase (R802). -/
theorem cycle_phase (c : Chip) : (cycle c).seq.phase = .even := by
  rw [cycle, cycleEnd_seq]
  rfl

/-! ### The call -/

theorem execHostRun_of_nonneg {n : Int} (s : State) (h : 0 ≤ n) :
    execHostRun n s = .next ({ s with
      chip := (runBudget (s.tickBudget + n) s.chip).2
      tickBudget := (runBudget (s.tickBudget + n) s.chip).1 }.returns
        (.ticks (runBudget (s.tickBudget + n) s.chip).1)) :=
  if_neg (Int.not_lt.2 h)

/-- Settles O15: the loop's last cycle leaves the carry, and what every cycle keeps or sets holds where it stops. -/
theorem runStopsAtCycleBoundaries : Obligations.RunStopsAtCycleBoundaries := by
  intro s n hn
  let budget := s.tickBudget + n
  refine ⟨_, execHostRun_of_nonneg s hn, rfl, runBudget_carry_nonpos budget s.chip, fun hpos => ?_, fun hphase => ?_,
    fun hv _ hcol => ?_⟩
  · obtain ⟨j, hchip, -, hcarry⟩ := runBudget_cycles s.chip hpos
    exact ⟨j, hchip, hcarry⟩
  · exact runBudget_induction (P := fun c => c.seq.phase = .even) (fun c _ => cycle_phase c) budget hphase
  · have hstart : ColumnIn .even s.chip := ⟨hv, hcol⟩
    obtain ⟨-, hstop⟩ := runBudget_induction (P := ColumnIn .even) (fun _ => cycle_columnIn) budget hstart
    exact hstop

end Sys2Proof.Proofs

/-! # Proofs: the memory unit -/

namespace Sys2Proof.Proofs

open Sys2Proof.Machine Sys2Proof.Laws

/-! ## Which segment an access reaches -/

theorem resolve_of_mapped_none {k : AccessKind} {a : Addr} {c : Chip} (h : mapped k a c = none) :
    resolve k a c = none := by
  simp only [resolve, h]

/-- The place of an address in slot `i`: its low 14 bits, if the slot is present (R202, R420). -/
def locationIn (c : Chip) (a : Addr) (i : Nat) : Option (Nat × BitVec 14) :=
  if (c.mem.seg i).isSome then some (i, a.extractLsb' 0 14) else none

theorem resolve_of_mapped {k : AccessKind} {a : Addr} {c : Chip} {i : Nat} (h : mapped k a c = some i) :
    resolve k a c = locationIn c a i := by
  simp only [resolve, h]
  rfl

/-! ### The key: the fields that the default map reads (R212, R213) -/

theorem memKey_expBank (k : AccessKind) (c : Chip) : field (memKey k c) 6 6 = c.lat.expBank := by
  rw [memKey, field, BitVec.extractLsb'_append_eq_of_le (by decide), BitVec.extractLsb'_append_eq_of_le (by decide),
    BitVec.extractLsb'_append_eq_of_le (by decide), BitVec.extractLsb'_append_eq_left]

theorem memKey_romBit (k : AccessKind) (c : Chip) : bit (memKey k c) 4 = romBit k c := by
  rw [memKey, bit, BitVec.getLsbD_append, if_neg (by decide), BitVec.getLsbD_append, if_neg (by decide),
    BitVec.getLsbD_append, if_pos (by decide)]
  exact BitVec.getLsbD_ofBool _ _

theorem memKey_romBankHi (k : AccessKind) (c : Chip) : field (memKey k c) 2 2 = c.lat.romBankHi := by
  rw [memKey, field, BitVec.extractLsb'_append_eq_of_le (by decide), BitVec.extractLsb'_append_eq_right]

theorem memKey_romBankLo (k : AccessKind) (c : Chip) : field (memKey k c) 0 2 = c.lat.romBankLo := by
  rw [memKey, field, BitVec.extractLsb'_append_eq_right]

/-! ### The places of the key's bits -/

theorem getLsbD_placedBit (set : Bool) (b : Nat) {place : Nat} (h : place < 12) :
    (if set then setBit 0 b else 0 : BitVec 12).getLsbD place = (set && decide (b = place)) := by
  cases set with
  | false => simp
  | true =>
    rw [if_pos rfl, setBit, BitVec.getLsbD_or, ← BitVec.twoPow_eq, BitVec.getLsbD_twoPow]
    by_cases hb : b = place
    · simp [hb, h]
    · simp [hb]

/-- A place that no bit is assigned to stays clear. -/
theorem getLsbD_placeKey_of_not_mem {l : List Nat} {place : Nat} (hplace : place < 12) (h : place ∉ l) (i : Nat)
    (key : BitVec 12) : (placeKey l i key).getLsbD place = false := by
  induction l generalizing i with
  | nil => simp [placeKey]
  | cons b l ih =>
    obtain ⟨hb, hl⟩ : place ≠ b ∧ place ∉ l := by simpa using h
    rw [placeKey, BitVec.getLsbD_or, getLsbD_placedBit _ _ hplace, decide_eq_false (Ne.symm hb), Bool.and_false,
      Bool.false_or, ih hl]

/-- Where the places differ, each holds its bit of the key. -/
theorem getLsbD_placeKey {l : List Nat} (hl : l.Nodup) {n place : Nat} (h : l[n]? = some place) (hplace : place < 12)
    (i : Nat) (key : BitVec 12) : (placeKey l i key).getLsbD place = key.getLsbD (i + n) := by
  induction l generalizing i n with
  | nil => cases h
  | cons b l ih =>
    obtain ⟨hb, hl⟩ := List.nodup_cons.1 hl
    rw [placeKey, BitVec.getLsbD_or, getLsbD_placedBit _ _ hplace]
    cases n with
    | zero =>
      obtain rfl : b = place := by simpa using h
      rw [getLsbD_placeKey_of_not_mem hplace hb, Bool.or_false, decide_eq_true rfl, Bool.and_true]
      rfl
    | succ n =>
      have hmem : place ∈ l := List.mem_of_getElem? h
      have hne : b ≠ place := fun he => hb (he ▸ hmem)
      rw [decide_eq_false hne, Bool.and_false, Bool.false_or, ih hl h]
      congr 1
      omega

/-- An admissible key layout is a permutation of the twelve places (R212). -/
theorem keyLayout_perm {l : List Nat} (h : keyLayoutOk l = true) : (List.range 12).Perm l := by
  simp only [keyLayoutOk, Bool.and_eq_true, decide_eq_true_eq, List.all_eq_true, List.contains_iff_mem] at h
  obtain ⟨hlen, hall⟩ := h
  exact (List.nodup_range.subperm hall).perm_of_length_le (by rw [hlen, List.length_range])

/-- Each bit of the key stands at its place of an admissible layout. -/
theorem getLsbD_placeKey_of_layoutOk {l : List Nat} (h : keyLayoutOk l = true) {n place : Nat}
    (hn : l[n]? = some place) (key : BitVec 12) : (placeKey l 0 key).getLsbD place = key.getLsbD n := by
  have hperm := keyLayout_perm h
  have hplace : place < 12 := List.mem_range.1 (hperm.mem_iff.2 (List.mem_of_getElem? hn))
  rw [getLsbD_placeKey (hperm.nodup List.nodup_range) hn hplace, Nat.zero_add]

theorem keyLayoutOk_of_valid {p : Params} (h : p.valid = true) : keyLayoutOk p.keyLayout = true := by
  simp only [Params.valid, Bool.and_eq_true] at h
  exact h.1.1.1.2

/-! ### The slot -/

/-- An address in the range of a slot has that slot, as the ranges do not overlap (R210, R211). -/
theorem slot_eq_of_mem_range {g : Params} (h : slotRangesOk g.slotRanges = true) {sl : Nat} {r : Addr × Addr}
    (hr : g.slotRanges[sl]? = some r) {a : Addr} (hlo : r.1 ≤ a) (hhi : a ≤ r.2) : slot g a = sl := by
  simp only [slotRangesOk, Bool.and_eq_true, decide_eq_true_eq] at h
  obtain ⟨⟨-, hpair⟩, -⟩ := h
  obtain ⟨hlt, rfl⟩ := List.getElem?_eq_some_iff.1 hr
  rw [BitVec.le_def] at hlo hhi
  refine (List.findIdx_eq hlt).2 ⟨by simp [hlo, hhi], fun j hj => ?_⟩
  have hapart := List.pairwise_iff_getElem.1 hpair j sl (by omega) hlt hj
  simp only [Bool.and_eq_false_iff, decide_eq_false_iff_not]
  omega

theorem slotRangesOk_of_valid {p : Params} (h : p.valid = true) : slotRangesOk p.slotRanges = true := by
  simp only [Params.valid, Bool.and_eq_true] at h
  exact h.1.1.1.1.2

/-- The slot that each address has under the default ranges (R210). -/
theorem slot_default {g : Params} (h : g.slotRanges = defaultSlotRanges) (a : Addr) :
    slot g a = if a.toNat < 0x1000 then 0 else if a.toNat < 0x4000 then 1 else if a.toNat < 0x8000 then 2
      else if a.toNat < 0xC000 then 3 else if a.toNat < 0xFC00 then 4 else if a.toNat < 0xFD00 then 5
      else if a.toNat < 0xFF00 then 6 else 7 := by
  have hslot : ∀ (sl : Nat) (r : Addr × Addr), defaultSlotRanges[sl]? = some r → r.1 ≤ a → a ≤ r.2 → slot g a = sl :=
    fun sl r hr => slot_eq_of_mem_range (by rw [h]; decide) (by rw [h]; exact hr)
  split_ifs
  · exact hslot 0 (0x0000, 0x0FFF) rfl (by bv_omega) (by bv_omega)
  · exact hslot 1 (0x1000, 0x3FFF) rfl (by bv_omega) (by bv_omega)
  · exact hslot 2 (0x4000, 0x7FFF) rfl (by bv_omega) (by bv_omega)
  · exact hslot 3 (0x8000, 0xBFFF) rfl (by bv_omega) (by bv_omega)
  · exact hslot 4 (0xC000, 0xFBFF) rfl (by bv_omega) (by bv_omega)
  · exact hslot 5 (0xFC00, 0xFCFF) rfl (by bv_omega) (by bv_omega)
  · exact hslot 6 (0xFD00, 0xFEFF) rfl (by bv_omega) (by bv_omega)
  · exact hslot 7 (0xFF00, 0xFFFF) rfl (by bv_omega) (by bv_omega)

theorem quarter_slot_default {g : Params} (h : g.slotRanges = defaultSlotRanges) (a : Addr) :
    quarter (slot g a) = a.toNat / 16384 := by
  have ha := a.isLt
  rw [slot_default h]
  split_ifs <;> simp only [quarter] <;> omega

/-! ### The default map -/

theorem mapped_of_default {c : Chip} {size : Nat} (hsize : c.mem.ramSizeKiB = some size)
    (hmap : c.cfg.memoryMap = none) (k : AccessKind) (a : Addr) :
    mapped k a c = some (defaultMap size (memKey k c) (slot c.cfg a)) := by
  simp only [mapped, memMap, hsize, hmap]

/-- The RAM segment of an address under the default map: counted down from the highest index by the expansion bank and
the quarter of the address space, and wrapping with the number of RAM segments (R220). -/
def defaultRamIndex (size : Nat) (c : Chip) (a : Addr) : Nat :=
  255 - (4 * c.lat.expBank.toNat + a.toNat / 16384) % (size / 16)

/-- The segment of an address under the default map for an access that sees ROM: the selected ROM banks in the upper half
of the address space (R220). -/
def defaultRomIndex (size : Nat) (c : Chip) (a : Addr) : Nat :=
  if a.toNat < 0x8000 then defaultRamIndex size c a
  else if a.toNat < 0xC000 then 2 * c.lat.romBankLo.toNat
  else if 0xFC00 ≤ a.toNat ∧ a.toNat < 0xFD00 then 1
  else 2 * c.lat.romBankHi.toNat + 1

theorem ramSeg_eq_defaultRamIndex (size : Nat) (k : AccessKind) {c : Chip}
    (hranges : c.cfg.slotRanges = defaultSlotRanges) (a : Addr) :
    ramSeg (size / 16) (field (memKey k c) 6 6).toNat (quarter (slot c.cfg a)) = defaultRamIndex size c a := by
  rw [ramSeg, memKey_expBank, quarter_slot_default hranges, Nat.mul_comm, defaultRamIndex]

theorem defaultMap_of_ram (size : Nat) {k : AccessKind} {c : Chip} (h : romBit k c = false) (sl : Nat) :
    defaultMap size (memKey k c) sl = ramSeg (size / 16) (field (memKey k c) 6 6).toNat (quarter sl) := by
  simp only [defaultMap, memKey_romBit, h, Bool.false_eq_true, if_false]

/-- The default map, by addresses: the bounds of its slots are those of the address halves and of 0xFC00-0xFCFF, so a slot
and a region that do not meet contradict each other, and in the rest both sides name the same segment. -/
theorem defaultMap_eq (size : Nat) (k : AccessKind) {c : Chip} (hranges : c.cfg.slotRanges = defaultSlotRanges)
    (a : Addr) : defaultMap size (memKey k c) (slot c.cfg a) =
      if romBit k c then defaultRomIndex size c a else defaultRamIndex size c a := by
  simp only [defaultMap, memKey_romBit, memKey_romBankHi, memKey_romBankLo, ramSeg_eq_defaultRamIndex size k hranges]
  refine if_congr Iff.rfl ?_ rfl
  rw [slot_default hranges, defaultRomIndex]
  split_ifs
  any_goals omega
  all_goals rfl

/-- Under the default map the segment an access reaches depends on its kind through the rom bit alone. -/
theorem resolve_of_default {c : Chip} {size : Nat} (hsize : c.mem.ramSizeKiB = some size)
    (hmap : c.cfg.memoryMap = none) (hranges : c.cfg.slotRanges = defaultSlotRanges) (k : AccessKind) (a : Addr) :
    resolve k a c = if romBit k c then locationIn c a (defaultRomIndex size c a)
      else locationIn c a (defaultRamIndex size c a) := by
  rw [resolve_of_mapped (mapped_of_default hsize hmap k a), defaultMap_eq size k hranges, apply_ite (locationIn c a)]

theorem locationIn_defaultRomIndex (size : Nat) (c : Chip) (a : Addr) :
    locationIn c a (defaultRomIndex size c a) =
      if a.toNat < 0x8000 then locationIn c a (defaultRamIndex size c a)
      else if a.toNat < 0xC000 then locationIn c a (2 * c.lat.romBankLo.toNat)
      else if 0xFC00 ≤ a.toNat ∧ a.toNat < 0xFD00 then locationIn c a 1
      else locationIn c a (2 * c.lat.romBankHi.toNat + 1) := by
  simp only [defaultRomIndex, apply_ite (locationIn c a)]

/-! ### A map given as data -/

theorem mapped_of_map {c : Chip} {size : Nat} {t : MemoryMap} {m : SizeMap} (hsize : c.mem.ramSizeKiB = some size)
    (hmap : c.cfg.memoryMap = some t) (hof : t.ofSize size = some m) (k : AccessKind) (a : Addr) :
    mapped k a c = m.entries.lookup ((placeKey c.cfg.keyLayout 0 (memKey k c)).toNat, slot c.cfg a) := by
  simp only [mapped, memMap, hsize, hmap, MemoryMap.entry, hof]

theorem mapped_of_unconfigured {c : Chip} (h : c.mem.ramSizeKiB = none) (k : AccessKind) (a : Addr) :
    mapped k a c = none := by
  simp only [mapped, memMap, h]

/-! ### CPU writes of a laid-out state -/

/-- A RAM segment that the default map names is in RAMSET. -/
theorem ramSeg_mem_ramSet {p : Params} (hp : p.memoryMap = none) {size : Nat} (hsize : size ∈ Config.ramSizes)
    (exp q : Nat) : ramSeg (size / 16) exp q ∈ ramSet p size := by
  have hbase := ramSetBase_add hsize
  have hpos : 0 < size / 16 := by
    simp only [Config.ramSizes, List.mem_cons, List.not_mem_nil, or_false] at hsize
    omega
  have hmod := Nat.mod_lt (exp * 4 + q) hpos
  rw [mem_defaultRamSet hp hsize, ramSeg]
  omega

/-- Under the RAM configuration of a size its RAMSET is the RAM there is (R402). -/
theorem isRam_iff_of_ramLaid {p : Params} {m : Memory} {size : Nat} (h : ramLaid p m = true)
    (hsize : m.ramSizeKiB = some size) :
    size ∈ Config.ramSizes ∧ ∀ i < Config.segSlots, m.isRam i = true ↔ i ∈ ramSet p size := by
  simp only [ramLaid, hsize, Bool.and_eq_true, decide_eq_true_eq, List.all_eq_true, List.mem_range, beq_iff_eq] at h
  obtain ⟨⟨hmem, -⟩, hlaid⟩ := h
  exact ⟨hmem, fun i hi => by rw [hlaid i hi, List.contains_iff_mem]⟩

theorem laidOut_iff (s : State) : LaidOut s = true ↔
    romApart s.chip.cfg = true ∧ ramLaid s.chip.cfg s.chip.mem = true ∧ romLaid s.chip.cfg s.chip.mem = true ∧
      ∀ k ∈ s.host.snapshots, ramLaid s.chip.cfg k.ram = true ∧ ramOnly k.ram = true := by
  simp only [LaidOut, Bool.and_eq_true, List.all_eq_true, and_assoc]

/-- Once RAM is configured and laid out, a CPU write under the default map reaches RAM (R244). -/
theorem resolve_cpuWrite_isRam {c : Chip} {size : Nat} (hlaid : ramLaid c.cfg c.mem = true)
    (hsize : c.mem.ramSizeKiB = some size) (hmap : c.cfg.memoryMap = none) (a : Addr) :
    ∃ k, resolve .cpuWrite a c = some (k, a.extractLsb' 0 14) ∧ c.mem.isRam k = true := by
  obtain ⟨hmem, hram⟩ := isRam_iff_of_ramLaid hlaid hsize
  let i := ramSeg (size / 16) (field (memKey .cpuWrite c) 6 6).toNat (quarter (slot c.cfg a))
  have hmapped : mapped .cpuWrite a c = some i := by
    rw [mapped_of_default hsize hmap, defaultMap_of_ram size (k := .cpuWrite) rfl]
  have hlt : i < Config.segSlots := Nat.lt_of_le_of_lt (Nat.sub_le _ _) (by decide)
  have hisRam : c.mem.isRam i = true := (hram i hlt).2 (ramSeg_mem_ramSet hmap hmem _ _)
  obtain ⟨sz, fp, hseg⟩ := (isRam_eq _ _).1 hisRam
  refine ⟨i, ?_, hisRam⟩
  rw [resolve_of_mapped hmapped, locationIn, hseg]
  rfl

/-- Settles O34: each clause is the lemma about its part of the resolution. -/
theorem accessesResolveByTheMap : Obligations.AccessesResolveByTheMap := by
  intro s a
  refine ⟨fun k => ?_, fun hv key i place hplace => ?_, fun hv sl r hr hlo hhi => ?_, fun hnone k => ?_,
    fun size t m hsize hmap hof k => ⟨fun i hi => ?_, fun hnone => ?_⟩, fun size hsize hmap hranges => ?_,
    fun hlaid hmap hconf => ?_⟩
  · cases k <;> rfl
  · exact getLsbD_placeKey_of_layoutOk (keyLayoutOk_of_valid hv) hplace key
  · exact slot_eq_of_mem_range (slotRangesOk_of_valid hv) hr hlo hhi
  · exact resolve_of_mapped_none (mapped_of_unconfigured hnone k a)
  · exact resolve_of_mapped ((mapped_of_map hsize hmap hof k a).trans hi)
  · exact resolve_of_mapped_none ((mapped_of_map hsize hmap hof k a).trans hnone)
  · have hres := resolve_of_default hsize hmap hranges
    simp only [locationIn_defaultRomIndex] at hres
    exact ⟨hres .cpuWrite a, hres .chipDmaRead a, hres .cpuRead a, hres .chipBitmapRead a⟩
  · obtain ⟨size, hsize⟩ := Option.ne_none_iff_exists'.1 hconf
    obtain ⟨-, hram, -, -⟩ := (laidOut_iff s).1 hlaid
    exact resolve_cpuWrite_isRam hram hsize hmap a

/-! ## Accesses of memory -/

/-! ### What a read and a write do, by what they resolve to -/

theorem memReadValue_of_openBus {k : AccessKind} {a : Addr} {c : Chip} (h : resolve k a c = none) :
    memReadValue k a c = c.lat.busValue := by
  simp only [memReadValue, h]

theorem memReadValue_of_resolved {k : AccessKind} {a : Addr} {c : Chip} {i : Nat} {off : BitVec 14}
    (h : resolve k a c = some (i, off)) : memReadValue k a c = (c.mem.read i off.toNat).getD c.lat.busValue := by
  simp only [memReadValue, h]

/-- A read that returns the bus value leaves it (R231). -/
theorem drive_busValue_self (c : Chip) : c.drive c.lat.busValue = c := rfl

theorem memReadEffect_of_openBus {k : AccessKind} {a : Addr} {c : Chip} (h : resolve k a c = none) :
    memReadEffect k a c = c := by
  rw [memReadEffect, memReadValue_of_openBus h, drive_busValue_self]

/-- A CPU read of memory is handed the byte that `memReadValue` gives (R594). -/
theorem exec_memRd (a : Addr) (s : State) :
    exec (.memRd a) s = .next (s.afterRead a (memReadValue .cpuRead a s.chip)) := rfl

/-- A CPU write of memory drives its byte and then stores it where CPU_WRITE resolves to RAM (R595). -/
theorem exec_memWr (a : Addr) (v : Byte) (s : State) :
    exec (.memWr a v) s = .next (s.onChip fun c => memWrite a v (accept a v c)) := rfl

/-- Driving the bus changes nothing that a resolution depends on. -/
theorem resolve_accept (k : AccessKind) (a b : Addr) (v : Byte) (c : Chip) :
    resolve k b (accept a v c) = resolve k b c := rfl

/-- A CPU write that resolves to RAM stores its byte there (R595, R422). -/
theorem exec_memWr_of_ram {s : State} {a : Addr} {i : Nat} {off : BitVec 14} (v : Byte)
    (h : resolve .cpuWrite a s.chip = some (i, off)) (hram : s.chip.mem.isRam i = true) :
    exec (.memWr a v) s = .next { s.afterWrite a v with chip.mem := s.chip.mem.write i off.toNat v } := by
  have hwrite : memWrite a v (accept a v s.chip) =
      { accept a v s.chip with mem := s.chip.mem.write i off.toNat v } := by
    obtain ⟨j, o, hres, -, heq⟩ | ⟨hrom, -⟩ := memWrite_cases a v (accept a v s.chip)
    · obtain ⟨rfl, rfl⟩ : i = j ∧ off = o := by
        simpa only [resolve_accept, h, Option.some.injEq, Prod.mk.injEq] using hres
      exact heq
    · have hnot : s.chip.mem.isRam i = false := hrom i off h
      rw [hram] at hnot
      cases hnot
  rw [exec_memWr, State.onChip, hwrite]
  rfl

/-- A CPU write that resolves to nothing is ignored, but for the bus value (R422, R231). -/
theorem exec_memWr_of_openBus {s : State} {a : Addr} (v : Byte) (h : resolve .cpuWrite a s.chip = none) :
    exec (.memWr a v) s = .next (s.afterWrite a v) := by
  have hwrite : memWrite a v (accept a v s.chip) = accept a v s.chip := by
    obtain ⟨i, off, hres, -, -⟩ | ⟨-, heq⟩ := memWrite_cases a v (accept a v s.chip)
    · rw [resolve_accept, h] at hres
      cases hres
    · exact heq
  rw [exec_memWr, State.onChip, hwrite]
  rfl

/-- Settles O32: an access that resolves to nothing takes the open-bus branch of its rule. -/
theorem openBusAccesses : Obligations.OpenBusAccesses := by
  intro s a v
  refine ⟨fun k h => ⟨memReadValue_of_openBus h, memReadEffect_of_openBus h⟩, fun h => ?_, exec_memWr_of_openBus v⟩
  rw [exec_memRd, memReadValue_of_openBus h]
  rfl

/-! ### A read after a write -/

/-- With ROM hidden from CPU reads they have the key of a CPU write (R213, R250). -/
theorem resolve_cpuRead_of_romOff {c : Chip} (h : c.lat.cpuRomOn = false) (a : Addr) :
    resolve .cpuRead a c = resolve .cpuWrite a c := by
  have hkey : memKey .cpuRead c = memKey .cpuWrite c := by
    simp only [memKey, romBit, isChipAccess, h]
  simp only [resolve, mapped, hkey]

/-- A resolution depends on the storage through its segments and the RAM size alone. -/
theorem resolve_setMem (k : AccessKind) (a : Addr) {c : Chip} {m : Memory} (hsegs : m.segs = c.mem.segs)
    (hsize : m.ramSizeKiB = c.mem.ramSizeKiB) : resolve k a { c with mem := m } = resolve k a c := by
  have hmapped : mapped k a { c with mem := m } = mapped k a c := by
    simp only [mapped, hsize]
    rfl
  cases hentry : mapped k a c with
  | none => rw [resolve_of_mapped_none (hmapped.trans hentry), resolve_of_mapped_none hentry]
  | some i =>
    rw [resolve_of_mapped (hmapped.trans hentry), resolve_of_mapped hentry]
    have hseg : m.seg i = c.mem.seg i := by rw [Memory.seg, hsegs, Memory.seg]
    simp only [locationIn, hseg]

/-- Settles O35: the write stores its byte where the read then resolves to. -/
theorem readsReturnTheLastWrite : Obligations.ReadsReturnTheLastWrite := by
  intro s t a v i off hrom hres hram h
  rw [exec_memWr_of_ram v hres hram] at h
  cases h
  let c : Chip := { (s.afterWrite a v).chip with mem := s.chip.mem.write i off.toNat v }
  have hread : resolve .cpuRead a c = some (i, off) :=
    calc resolve .cpuRead a c = resolve .cpuRead a (s.afterWrite a v).chip := resolve_setMem _ _ rfl rfl
      _ = resolve .cpuRead a s.chip := rfl
      _ = resolve .cpuWrite a s.chip := resolve_cpuRead_of_romOff hrom a
      _ = some (i, off) := hres
  have hbyte : c.mem.read i off.toNat = some v := by
    obtain ⟨size, fp, hseg⟩ := (isRam_eq _ _).1 hram
    rw [read_write _ _ _ _ _ _ off.isLt off.isLt, if_pos ⟨rfl, rfl⟩, hseg, Option.map_some]
  rw [exec_memRd, memReadValue_of_resolved hread, hbyte, Option.getD_some]

/-! ## ROM changes only through loadROM -/

/-! ### A slot that is left as it is -/

/-- Slot `k` of a storage keeps its segment and its written bytes. -/
structure KeepsSlot (k : Nat) (m m' : Memory) : Prop where
  seg : m'.seg k = m.seg k
  cells : ∀ x, x / Config.segSize = k → assocGet m'.cells x = assocGet m.cells x

theorem KeepsSlot.refl (k : Nat) (m : Memory) : KeepsSlot k m m := ⟨rfl, fun _ _ => rfl⟩

theorem KeepsSlot.trans {k : Nat} {m m' m'' : Memory} (h : KeepsSlot k m m') (h' : KeepsSlot k m' m'') :
    KeepsSlot k m m'' :=
  ⟨h'.seg.trans h.seg, fun x hx => (h'.cells x hx).trans (h.cells x hx)⟩

theorem KeepsSlot.isRom_eq {k : Nat} {m m' : Memory} (h : KeepsSlot k m m') : m'.isRom k = m.isRom k := by
  rw [Memory.isRom, h.seg, Memory.isRom]

/-- A kept slot reads as before. -/
theorem KeepsSlot.read_eq {k : Nat} {m m' : Memory} (h : KeepsSlot k m m') {off : Nat} (hoff : off < Config.segSize) :
    m'.read k off = m.read k off := by
  rw [Memory.read, h.seg, h.cells _ (cellAddr_div k off hoff), Memory.read]

/-! ### The ROM slots under each change of the storage -/

theorem isRam_of_isRom {m : Memory} {k : Nat} (h : m.isRom k = true) : m.isRam k = false := by
  obtain ⟨d, hd⟩ := (isRom_eq m k).1 h
  rw [Memory.isRam, hd]
  rfl

/-- Bus accesses and chip operations write RAM only. -/
theorem keepsSlot_of_memEvolves {m m' : Memory} (h : MemEvolves m m') {k : Nat} (hk : m.isRom k = true) :
    KeepsSlot k m m' :=
  ⟨by rw [Memory.seg, h.segs, Memory.seg], fun x hx => h.bytes x (by rw [hx]; exact isRam_of_isRom hk)⟩

/-- A refill keeps ROM (R1201). -/
theorem keepsSlot_refill {m : Memory} {k : Nat} (hk : m.isRom k = true) : KeepsSlot k m m.refill :=
  ⟨(refill_rom m k hk).1, (refill_rom m k hk).2⟩

/-- configureRAM keeps the ROM slots outside the new RAMSET (R406). -/
theorem keepsSlot_configuredMem {p : Params} (hv : p.valid = true) {size : Nat} (hsize : size ∈ Config.ramSizes)
    (fp : Nat) {m : Memory} {k : Nat} (hk : m.isRom k = true) (hout : k ∉ ramSet p size) :
    KeepsSlot k m (configuredMem p size fp m) where
  seg := by rw [configured_seg hv hsize, if_neg hout, if_pos hk]
  cells x hx := by
    have hcontains : (ramSet p size).contains k = false := by simpa using hout
    rw [configured_cells, hx, hcontains, hk]
    rfl

/-- loadState keeps the chip's ROM slots where the snapshot holds no segment (R1211). -/
theorem keepsSlot_withRam {m ram : Memory} (hwf : ram.wf = true) {k : Nat} (hk : m.isRom k = true)
    (habsent : ram.seg k = none) : KeepsSlot k m (m.withRam ram) := by
  obtain ⟨hsegs, hcells, -, hpresent⟩ := (wf_iff ram).1 hwf
  refine ⟨by rw [withRam_seg m ram hsegs, habsent, Option.none_or, if_pos hk], fun x hx => ?_⟩
  have hnone : assocGet ram.cells x = none := by
    refine Option.eq_none_iff_forall_ne_some.2 fun v hv => ?_
    have hsome := hpresent x v hv
    rw [hx, habsent] at hsome
    cases hsome
  rw [withRam_cells m ram hcells, hnone, Option.none_or, hx, hk, habsent]
  rfl

/-! ### Where RAM and ROM stand in a laid-out state -/

/-- A ROM segment of a laid-out storage stands in the slot of a ROM bank. -/
theorem mem_romSlots_of_isRom {p : Params} {m : Memory} (h : romLaid p m = true) {k : Nat} (hk : m.isRom k = true) :
    k ∈ romSlots p := by
  obtain ⟨d, hd⟩ := (isRom_eq m k).1 hk
  have hentry := List.all_eq_true.1 h (k, .rom d) (mem_of_assocGet hd)
  simpa [Segment.isRam] using hentry

/-- The slot of a ROM bank is in no RAMSET (R402). -/
theorem not_mem_ramSet_of_romApart {p : Params} (h : romApart p = true) {size : Nat} (hsize : size ∈ Config.ramSizes)
    {k : Nat} (hk : k ∈ romSlots p) : k ∉ ramSet p size := by
  simp only [romApart, List.all_eq_true, Bool.not_eq_true', List.contains_eq_mem, decide_eq_false_iff_not] at h
  exact fun hmem => h size hsize k hmem hk

/-- A storage of RAM segments alone, laid out, holds nothing in the slot of a ROM bank. -/
theorem seg_eq_none_of_ramLaid {p : Params} (hapart : romApart p = true) {ram : Memory} (hwf : ram.wf = true)
    (honly : ramOnly ram = true) (hlaid : ramLaid p ram = true) {k : Nat} (hk : k ∈ romSlots p) : ram.seg k = none := by
  obtain ⟨hsegs, -, hlt, -⟩ := (wf_iff ram).1 hwf
  refine Option.eq_none_iff_forall_ne_some.2 fun g hg => ?_
  have hslot : k < Config.segSlots := hlt k g hg
  have hisRam : ram.isRam k = true := by
    have hgRam : g.isRam = true := List.all_eq_true.1 honly (k, g) (mem_of_assocGet hg)
    rw [Memory.isRam, hg, Option.map_some, hgRam, Option.getD_some]
  cases hsize : ram.ramSizeKiB with
  | none =>
    simp only [ramLaid, hsize, List.all_eq_true, List.mem_range, Bool.not_eq_true'] at hlaid
    rw [hlaid k hslot] at hisRam
    cases hisRam
  | some size =>
    obtain ⟨hmem, hiff⟩ := isRam_iff_of_ramLaid hlaid hsize
    exact not_mem_ramSet_of_romApart hapart hmem hk ((hiff k hslot).1 hisRam)

/-! ### The host calls -/

@[simp] theorem drewReset_mem (s : State) : s.drewReset.chip.mem = s.chip.mem := by
  unfold State.drewReset
  split <;> rfl

@[simp] theorem notifyStandard_mem (before : Bool) (c : Chip) : (notifyStandard before c).mem = c.mem := by
  unfold notifyStandard
  split <;> rfl

/-- A reset leaves the storage or refills RAM (R1201). -/
theorem resetChip_mem_cases (cold : Bool) (d : ResetDraws) (c : Chip) :
    (resetChip cold d c).mem = c.mem ∨ (resetChip cold d c).mem = c.mem.refill := by
  rw [resetChip, emit_mem, notifyStandard_mem, coldRamReset]
  split
  · exact .inr rfl
  · exact .inl rfl

theorem keepsSlot_execHostConfigureRAM {size : Int} {fp : Nat} {s t : State} (hv : s.chip.cfg.valid = true) {k : Nat}
    (hk : s.chip.mem.isRom k = true) (hout : ∀ size ∈ Config.ramSizes, k ∉ ramSet s.chip.cfg size)
    (h : execHostConfigureRAM size fp s = .next t) : KeepsSlot k s.chip.mem t.chip.mem := by
  obtain ⟨c, hevolves, ht⟩ := execHostConfigureRAM_chip_cases h
  have hdrawn : KeepsSlot k s.chip.mem c.mem := keepsSlot_of_memEvolves hevolves.mem hk
  obtain rfl | ht := ht
  · exact hdrawn
  · rw [ht]
    refine hdrawn.trans (keepsSlot_configuredMem (hevolves.cfg ▸ hv) (roundRam_mem size) fp ?_ ?_)
    · rw [hdrawn.isRom_eq, hk]
    · rw [hevolves.cfg]
      exact hout _ (roundRam_mem size)

theorem keepsSlot_execHostRun {ticks : Int} {s t : State} {k : Nat} (hk : s.chip.mem.isRom k = true)
    (h : execHostRun ticks s = .next t) : KeepsSlot k s.chip.mem t.chip.mem := by
  unfold execHostRun at h
  split_ifs at h <;> cases h
  · exact .refl _ _
  · exact keepsSlot_of_memEvolves (evolves_runBudget _ _).mem hk

theorem keepsSlot_resetChip (cold : Bool) (d : ResetDraws) {c : Chip} {k : Nat} (hk : c.mem.isRom k = true) :
    KeepsSlot k c.mem (resetChip cold d c).mem := by
  obtain hmem | hmem := resetChip_mem_cases cold d c <;> rw [hmem]
  · exact .refl _ _
  · exact keepsSlot_refill hk

theorem keepsSlot_execHostLoadState {n : Nat} {s t : State} (hs : Good s = true) (hlaid : LaidOut s = true) {k : Nat}
    (hk : s.chip.mem.isRom k = true) (h : execHostLoadState n s = .next t) :
    KeepsSlot k s.chip.mem t.chip.mem := by
  obtain ⟨-, -, hsnapsOk⟩ := (good_iff s).1 hs
  obtain ⟨hapart, -, hromLaid, hsnapsLaid⟩ := (laidOut_iff s).1 hlaid
  unfold execHostLoadState at h
  split at h
  next => cases h
  next snap hget =>
    cases h
    have hmem : snap ∈ s.host.snapshots := List.mem_of_getElem? hget
    have hok := hsnapsOk snap hmem
    simp only [snapshotOk, Bool.and_eq_true] at hok
    obtain ⟨⟨hwf, honly⟩, -⟩ := hok
    exact keepsSlot_withRam hwf hk
      (seg_eq_none_of_ramLaid hapart hwf honly (hsnapsLaid snap hmem).1 (mem_romSlots_of_isRom hromLaid hk))

/-- No operation but loadROM changes a ROM slot of a good, laid-out state. -/
theorem exec_keepsSlot (i : Instr) {s t : State} (hs : Good s = true) (hlaid : LaidOut s = true)
    (h : exec i s = .next t) (hi : ∀ b o l bs, i ≠ .hostLoadROM b o l bs) {k : Nat}
    (hk : s.chip.mem.isRom k = true) : KeepsSlot k s.chip.mem t.chip.mem := by
  obtain ⟨hv, -, -⟩ := (good_iff s).1 hs
  obtain ⟨hapart, -, hromLaid, -⟩ := (laidOut_iff s).1 hlaid
  have hevolves : ∀ {c'}, Evolves s.chip c' → KeepsSlot k s.chip.mem c'.mem := fun he => keepsSlot_of_memEvolves he.mem hk
  by_cases hf : (encode i).fmt = .host
  · cases i with
    | hostLoadROM b o l bs => exact absurd rfl (hi b o l bs)
    | hostConfigureRAM =>
      exact keepsSlot_execHostConfigureRAM hv hk
        (fun _ hsize => not_mem_ramSet_of_romApart hapart hsize (mem_romSlots_of_isRom hromLaid hk)) h
    | hostRun => exact keepsSlot_execHostRun hk h
    | hostReset cold =>
      cases h
      have hreset := keepsSlot_resetChip (c := s.drewReset.chip) cold s.resetDraw (k := k) (by rw [drewReset_mem, hk])
      rw [drewReset_mem] at hreset
      exact hreset
    | hostLoadState => exact keepsSlot_execHostLoadState hs hlaid hk h
    | hostWriteRegister => cases h; exact hevolves (evolves_writeRule _ _ _ _)
    | hostReadRegister => cases h; exact hevolves (evolves_drewOnRead _ _)
    | hostResolve | hostGetSegmentKind | hostSaveState | hostRegisterCallback
    | hostReservedB | hostReservedC | hostReservedD | hostReservedE | hostReservedF => cases h; exact .refl _ _
    | _ => cases hf
  · obtain ⟨f, hexec, he⟩ := exec_evolves i s hf
    rw [hexec] at h
    cases h
    exact hevolves he

/-- Settles O11: a slot that keeps its segment and its written bytes stays ROM and reads as before. -/
theorem romChangesOnlyByLoadRom : Obligations.RomChangesOnlyByLoadRom := by
  intro i s t hs hlaid h hi k off hoff hk
  have hkeeps : KeepsSlot k s.chip.mem t.chip.mem := exec_keepsSlot i hs hlaid h hi hk
  exact ⟨hkeeps.isRom_eq.trans hk, hkeeps.read_eq hoff⟩

end Sys2Proof.Proofs

/-! # Proofs: the codec, the CPU accesses, run() unrolled and the dispatch -/

namespace Sys2Proof.Proofs

open Sys2Proof.Machine Sys2Proof.Laws

/-! ## BUS words (R300, R301) -/

/-! ### The row of an address -/

/-- A word with a given high field is that field and some low bits. -/
theorem exists_low_bits {n m : Nat} {a : BitVec (n + m)} {hi : BitVec n} (h : a.extractLsb' m n = hi) :
    ∃ lo : BitVec m, a = hi ++ lo :=
  ⟨a.extractLsb' 0 m, by
    rw [← h, BitVec.extractLsb'_append_extractLsb'_eq_extractLsb' (Nat.zero_add m).symm, BitVec.extractLsb'_eq_self]⟩

/-- The register block lies in page 0xFF. -/
theorem page_of_block {a : Addr} (h : a.extractLsb' 5 11 = 0x7F8#11) : a.extractLsb' 8 8 = 0xFF#8 := by
  simp only [addr_field_eq_iff, BitVec.toNat_ofNat] at h ⊢
  omega

/-- The ROM-bank latch lies in page 0xFD. -/
theorem page_of_bankLatch {a : Addr} (h : a.extractLsb' 4 12 = 0xFDD#12) : a.extractLsb' 8 8 = 0xFD#8 := by
  simp only [addr_field_eq_iff, BitVec.toNat_ofNat] at h ⊢
  omega

/-- An address of one page is in no other. -/
theorem page_ne {p q lo : Byte} (h : p ≠ q) : (p ++ lo).extractLsb' 8 8 ≠ q := by
  rwa [BitVec.extractLsb'_append_eq_left]

/-- No address of another page than 0xFF is in the register block. -/
theorem not_block_of_page {a : Addr} (h : a.extractLsb' 8 8 ≠ 0xFF#8) : a.extractLsb' 5 11 ≠ 0x7F8#11 :=
  mt page_of_block h

/-- Within page 0xFD the ROM-bank latch is at the low bytes 0xD0 to 0xDF. -/
theorem bankLatch_pageFD (lo : Byte) : (0xFD#8 ++ lo).extractLsb' 4 12 = 0xFDD#12 ↔ isBankLatchLow lo = true := by
  have hpage : (0xFD#8 ++ lo).extractLsb' 8 8 = 0xFD#8 := BitVec.extractLsb'_append_eq_left
  have hlow : (0xFD#8 ++ lo).extractLsb' 0 8 = lo := BitVec.extractLsb'_append_eq_right
  simp only [addr_field_eq_iff, BitVec.toNat_ofNat, isBankLatchLow, decide_eq_true_eq] at hpage hlow ⊢
  omega

theorem decodeBusRead_block (o : BitVec 5) : decodeBusRead (0x7F8#11 ++ o) = readRow o := by
  rw [decodeBusRead, if_pos BitVec.extractLsb'_append_eq_left, BitVec.extractLsb'_append_eq_right]

theorem decodeBusRead_pageFD (lo : Byte) : decodeBusRead (0xFD#8 ++ lo) = .ioRdFD lo := by
  rw [decodeBusRead, if_neg (not_block_of_page (page_ne (by decide))), if_pos BitVec.extractLsb'_append_eq_left,
    BitVec.extractLsb'_append_eq_right]

theorem decodeBusRead_pageFE (lo : Byte) : decodeBusRead (0xFE#8 ++ lo) = .ioRdFE lo := by
  rw [decodeBusRead, if_neg (not_block_of_page (page_ne (by decide))), if_neg (page_ne (by decide)),
    if_pos BitVec.extractLsb'_append_eq_left, BitVec.extractLsb'_append_eq_right]

theorem decodeBusRead_memory {a : Addr} (hblock : inRegisterBlock a = false) (hio : inIoRange a = false) :
    decodeBusRead a = .memRd a := by
  rw [← Bool.not_eq_true, ← block_iff] at hblock
  rw [← Bool.not_eq_true, ← ioRange_iff, not_or] at hio
  rw [decodeBusRead, if_neg hblock, if_neg hio.1, if_neg hio.2]

theorem decodeBusWrite_block (o : BitVec 5) (v : Byte) : decodeBusWrite (0x7F8#11 ++ o) v = writeRow o v := by
  rw [decodeBusWrite, if_pos BitVec.extractLsb'_append_eq_left, BitVec.extractLsb'_append_eq_right]

/-- Outside page 0xFF a write is one of the bank latch, the I/O range and memory, in this order (R301 (3) to (5)). -/
theorem decodeBusWrite_of_page {a : Addr} (v : Byte) (h : a.extractLsb' 8 8 ≠ 0xFF#8) :
    decodeBusWrite a v =
      if a.extractLsb' 4 12 = 0xFDD#12 then .wrFDDx (a.extractLsb' 0 4) v
      else if a.extractLsb' 8 8 = 0xFD#8 then .ioWrFD (a.extractLsb' 0 8) v
      else if a.extractLsb' 8 8 = 0xFE#8 then .ioWrFE (a.extractLsb' 0 8) v
      else .memWr a v := by
  have hon : a ≠ 0xFF3E#16 := fun e => h (e ▸ rfl)
  have hoff : a ≠ 0xFF3F#16 := fun e => h (e ▸ rfl)
  rw [decodeBusWrite, if_neg (mt page_of_block h), if_neg hon, if_neg hoff]

theorem decodeBusWrite_bankLatch (x : BitVec 4) (v : Byte) : decodeBusWrite (0xFDD#12 ++ x) v = .wrFDDx x v := by
  have hlatch : (0xFDD#12 ++ x).extractLsb' 4 12 = 0xFDD#12 := BitVec.extractLsb'_append_eq_left
  have hpage : (0xFDD#12 ++ x).extractLsb' 8 8 ≠ 0xFF#8 := by
    rw [page_of_bankLatch hlatch]
    decide
  rw [decodeBusWrite_of_page v hpage, if_pos hlatch, BitVec.extractLsb'_append_eq_right]

theorem decodeBusWrite_pageFD {lo : Byte} (v : Byte) (h : isBankLatchLow lo = false) :
    decodeBusWrite (0xFD#8 ++ lo) v = .ioWrFD lo v := by
  rw [← Bool.not_eq_true, ← bankLatch_pageFD] at h
  rw [decodeBusWrite_of_page v (page_ne (by decide)), if_neg h, if_pos BitVec.extractLsb'_append_eq_left,
    BitVec.extractLsb'_append_eq_right]

theorem decodeBusWrite_pageFE (lo v : Byte) : decodeBusWrite (0xFE#8 ++ lo) v = .ioWrFE lo v := by
  have hlatch : (0xFE#8 ++ lo).extractLsb' 4 12 ≠ 0xFDD#12 := mt page_of_bankLatch (page_ne (by decide))
  rw [decodeBusWrite_of_page v (page_ne (by decide)), if_neg hlatch, if_neg (page_ne (by decide)),
    if_pos BitVec.extractLsb'_append_eq_left, BitVec.extractLsb'_append_eq_right]

theorem isRomLatch_iff (a : Addr) : isRomLatch a = true ↔ a = 0xFF3E#16 ∨ a = 0xFF3F#16 := by
  simp only [isRomLatch, Bool.or_eq_true, decide_eq_true_eq, ← BitVec.toNat_inj, BitVec.toNat_ofNat]

theorem decodeBusWrite_memory {a : Addr} (v : Byte) (hblock : inRegisterBlock a = false) (hio : inIoRange a = false)
    (hlatch : isRomLatch a = false) : decodeBusWrite a v = .memWr a v := by
  rw [← Bool.not_eq_true, ← block_iff] at hblock
  rw [← Bool.not_eq_true, ← ioRange_iff, not_or] at hio
  rw [← Bool.not_eq_true, isRomLatch_iff, not_or] at hlatch
  rw [decodeBusWrite, if_neg hblock, if_neg hlatch.1, if_neg hlatch.2, if_neg (mt page_of_bankLatch hio.1),
    if_neg hio.1, if_neg hio.2]

/-- The read rows: the register block, the two pages of the I/O range, memory (R301). -/
theorem decodeBusRead_cases (a : Addr) :
    (∃ o : BitVec 5, a = 0x7F8#11 ++ o ∧ decodeBusRead a = readRow o) ∨
    (∃ lo : Byte, a = 0xFD#8 ++ lo ∧ decodeBusRead a = .ioRdFD lo) ∨
    (∃ lo : Byte, a = 0xFE#8 ++ lo ∧ decodeBusRead a = .ioRdFE lo) ∨
    (inRegisterBlock a = false ∧ inIoRange a = false ∧ decodeBusRead a = .memRd a) := by
  by_cases hblock : inRegisterBlock a = true
  · obtain ⟨o, rfl⟩ := exists_low_bits (n := 11) ((block_iff a).2 hblock)
    exact .inl ⟨o, rfl, decodeBusRead_block o⟩
  by_cases hio : inIoRange a = true
  · obtain hpage | hpage := (ioRange_iff a).2 hio
    · obtain ⟨lo, rfl⟩ := exists_low_bits (n := 8) hpage
      exact .inr (.inl ⟨lo, rfl, decodeBusRead_pageFD lo⟩)
    · obtain ⟨lo, rfl⟩ := exists_low_bits (n := 8) hpage
      exact .inr (.inr (.inl ⟨lo, rfl, decodeBusRead_pageFE lo⟩))
  rw [Bool.not_eq_true] at hblock hio
  exact .inr (.inr (.inr ⟨hblock, hio, decodeBusRead_memory hblock hio⟩))

/-- The write rows: the register block, the three latches, the two pages of the I/O range, memory (R301). -/
theorem decodeBusWrite_cases (a : Addr) (v : Byte) :
    (∃ o : BitVec 5, a = 0x7F8#11 ++ o ∧ decodeBusWrite a v = writeRow o v) ∨
    (a = 0xFF3E#16 ∧ decodeBusWrite a v = .wrFF3E v) ∨ (a = 0xFF3F#16 ∧ decodeBusWrite a v = .wrFF3F v) ∨
    (∃ x : BitVec 4, a = 0xFDD#12 ++ x ∧ decodeBusWrite a v = .wrFDDx x v) ∨
    (∃ lo : Byte, a = 0xFD#8 ++ lo ∧ isBankLatchLow lo = false ∧ decodeBusWrite a v = .ioWrFD lo v) ∨
    (∃ lo : Byte, a = 0xFE#8 ++ lo ∧ decodeBusWrite a v = .ioWrFE lo v) ∨
    (inRegisterBlock a = false ∧ inIoRange a = false ∧ isRomLatch a = false ∧ decodeBusWrite a v = .memWr a v) := by
  by_cases hblock : inRegisterBlock a = true
  · obtain ⟨o, rfl⟩ := exists_low_bits (n := 11) ((block_iff a).2 hblock)
    exact .inl ⟨o, rfl, decodeBusWrite_block o v⟩
  refine .inr ?_
  by_cases hrom : isRomLatch a = true
  · obtain rfl | rfl := (isRomLatch_iff a).1 hrom
    · exact .inl ⟨rfl, rfl⟩
    · exact .inr (.inl ⟨rfl, rfl⟩)
  refine .inr (.inr ?_)
  by_cases hbank : a.extractLsb' 4 12 = 0xFDD#12
  · obtain ⟨x, rfl⟩ := exists_low_bits (n := 12) hbank
    exact .inl ⟨x, rfl, decodeBusWrite_bankLatch x v⟩
  refine .inr ?_
  by_cases hio : inIoRange a = true
  · obtain hpage | hpage := (ioRange_iff a).2 hio
    · obtain ⟨lo, rfl⟩ := exists_low_bits (n := 8) hpage
      have hlow : isBankLatchLow lo = false := by rwa [← Bool.not_eq_true, ← bankLatch_pageFD]
      exact .inl ⟨lo, rfl, hlow, decodeBusWrite_pageFD v hlow⟩
    · obtain ⟨lo, rfl⟩ := exists_low_bits (n := 8) hpage
      exact .inr (.inl ⟨lo, rfl, decodeBusWrite_pageFE lo v⟩)
  rw [Bool.not_eq_true] at hblock hrom hio
  exact .inr (.inr ⟨hblock, hio, hrom, decodeBusWrite_memory v hblock hio hrom⟩)

/-! ### The rows of the register block -/

theorem encode_readRow (o : BitVec 5) : encode (readRow o) = busReadBytes (0x7F8#11 ++ o) := by
  revert o
  decide

theorem encode_writeRow (o : BitVec 5) (v : Byte) : encode (writeRow o v) = busWriteBytes (0x7F8#11 ++ o) v := by
  obtain ⟨o⟩ := o
  fin_cases o <;> rfl

theorem wellFormed_readRow (o : BitVec 5) : (readRow o).wellFormed = true := by
  revert o
  decide

theorem wellFormed_writeRow (o : BitVec 5) (v : Byte) : (writeRow o v).wellFormed = true := by
  obtain ⟨o⟩ := o
  fin_cases o <;> rfl

theorem exec_readRow (o : BitVec 5) (s : State) : exec (readRow o) s = s.chipStep (cpuReadReg o.toFin) := by
  obtain ⟨o⟩ := o
  fin_cases o <;> rfl

theorem exec_writeRow (o : BitVec 5) (v : Byte) (s : State) :
    exec (writeRow o v) s = s.chipStep (cpuWriteReg o.toFin v) := by
  obtain ⟨o⟩ := o
  fin_cases o <;> rfl

/-! ### Decoding and encoding -/

theorem wellFormed_ioWrFD_iff {lo v : Byte} : (Instr.ioWrFD lo v).wellFormed = true ↔ isBankLatchLow lo = false := by
  rw [Instr.wellFormed, Bool.not_eq_true']

theorem wellFormed_memRd_iff {a : Addr} :
    (Instr.memRd a).wellFormed = true ↔ inRegisterBlock a = false ∧ inIoRange a = false := by
  rw [Instr.wellFormed, Bool.and_eq_true, Bool.not_eq_true', Bool.not_eq_true']

theorem wellFormed_memWr_iff {a : Addr} {v : Byte} : (Instr.memWr a v).wellFormed = true ↔
    inRegisterBlock a = false ∧ inIoRange a = false ∧ isRomLatch a = false := by
  rw [Instr.wellFormed, Bool.and_eq_true, Bool.and_eq_true, Bool.not_eq_true', Bool.not_eq_true', Bool.not_eq_true',
    and_assoc]

theorem wellFormed_decodeBusRead (a : Addr) : (decodeBusRead a).wellFormed = true := by
  obtain ⟨o, -, h⟩ | ⟨lo, -, h⟩ | ⟨lo, -, h⟩ | ⟨hblock, hio, h⟩ := decodeBusRead_cases a <;> rw [h]
  · exact wellFormed_readRow o
  · rfl
  · rfl
  · exact wellFormed_memRd_iff.2 ⟨hblock, hio⟩

theorem wellFormed_decodeBusWrite (a : Addr) (v : Byte) : (decodeBusWrite a v).wellFormed = true := by
  obtain ⟨o, -, h⟩ | ⟨-, h⟩ | ⟨-, h⟩ | ⟨x, -, h⟩ | ⟨lo, -, hlow, h⟩ | ⟨lo, -, h⟩ | ⟨hblock, hio, hrom, h⟩ :=
    decodeBusWrite_cases a v <;> rw [h]
  · exact wellFormed_writeRow o v
  · rfl
  · rfl
  · rfl
  · exact wellFormed_ioWrFD_iff.2 hlow
  · rfl
  · exact wellFormed_memWr_iff.2 ⟨hblock, hio, hrom⟩

theorem encode_decodeBusRead (a : Addr) : encode (decodeBusRead a) = busReadBytes a := by
  obtain ⟨o, rfl, h⟩ | ⟨lo, rfl, h⟩ | ⟨lo, rfl, h⟩ | ⟨-, -, h⟩ := decodeBusRead_cases a <;> rw [h]
  · exact encode_readRow o
  · rfl
  · rfl
  · rfl

theorem encode_decodeBusWrite (a : Addr) (v : Byte) : encode (decodeBusWrite a v) = busWriteBytes a v := by
  obtain ⟨o, rfl, h⟩ | ⟨rfl, h⟩ | ⟨rfl, h⟩ | ⟨x, rfl, h⟩ | ⟨lo, rfl, -, h⟩ | ⟨lo, rfl, h⟩ | ⟨-, -, -, h⟩ :=
    decodeBusWrite_cases a v <;> rw [h]
  · exact encode_writeRow o v
  all_goals rfl

/-- What the BUS channel decodes is a read or a write of some address, from that access's own bytes (R300). -/
theorem decodeBus_inv {bs rest : List Byte} {i : Instr} (h : decodeBus bs = .ok (i, rest)) :
    (∃ a, i = decodeBusRead a ∧ bs = (busReadBytes a).bytes ++ rest) ∨
    ∃ a v, i = decodeBusWrite a v ∧ bs = (busWriteBytes a v).bytes ++ rest := by
  have hbytes (b0 b1 : Byte) : encodeAddr (b1 ++ b0) = [b0, b1] := by
    rw [encodeAddr, BitVec.extractLsb'_append_eq_left, BitVec.extractLsb'_append_eq_right]
  unfold decodeBus at h
  split at h
  case h_2 => cases h
  next b0 b1 b2 rest' =>
    split_ifs at h with hread hwrite
    · cases h
      subst hread
      exact .inl ⟨b1 ++ b0, rfl, by rw [busReadBytes, hbytes]; rfl⟩
    · subst hwrite
      split at h
      next v rest'' =>
        cases h
        exact .inr ⟨b1 ++ b0, v, rfl, by rw [busWriteBytes, hbytes]; rfl⟩
      next => cases h

/-! ## HOST words (R310) -/

/-- A computation that succeeds has succeeded at its first part. -/
theorem bind_eq_ok {ε α β : Type} {x : Except ε α} {f : α → Except ε β} {r : β} (h : (x >>= f) = .ok r) :
    ∃ a, x = .ok a ∧ f a = .ok r := by
  cases x with
  | error e => cases h
  | ok a => exact ⟨a, rfl, h⟩

/-- A mapped result that succeeds. -/
theorem map_eq_ok {ε α β : Type} {x : Except ε α} {f : α → β} {r : β} (h : x.map f = .ok r) :
    ∃ a, x = .ok a ∧ f a = r := by
  cases x with
  | error e => cases h
  | ok a => exact ⟨a, rfl, Except.ok.inj h⟩

theorem fitsInt_of_takeInt {bs rest : List Byte} {n : Int} (h : takeInt bs = .ok (n, rest)) : fitsInt n = true := by
  obtain ⟨⟨x, bs'⟩, -, hx⟩ := map_eq_ok h
  cases hx
  have hlo := BitVec.le_toInt x
  have hhi := BitVec.toInt_lt (x := x)
  simp only [fitsInt, Bool.and_eq_true, decide_eq_true_eq]
  omega

theorem fitsNat_of_takeNat {bs rest : List Byte} {n : Nat} (h : takeNat bs = .ok (n, rest)) : fitsNat n = true := by
  obtain ⟨⟨x, bs'⟩, -, hx⟩ := map_eq_ok h
  cases hx
  exact decide_eq_true x.isLt

theorem length_of_takeBytes {n : Nat} {bs data rest : List Byte} (h : takeBytes n bs = .ok (data, rest)) :
    data.length = n := by
  unfold takeBytes at h
  split_ifs at h with hlen
  cases h
  exact List.length_take_of_le (Nat.not_lt.1 hlen)

theorem fitsNat_of_takeRomBytes {bs rest : List Byte} {data : Option (List Byte)}
    (h : takeRomBytes bs = .ok (data, rest)) : fitsNat ((data.getD []).length) = true := by
  obtain ⟨⟨tag, bs1⟩, -, h⟩ := bind_eq_ok h
  dsimp only at h
  split_ifs at h
  · cases h; rfl
  · obtain ⟨⟨n, bs2⟩, hn, h⟩ := bind_eq_ok h
    obtain ⟨⟨l, bs3⟩, hl, h⟩ := bind_eq_ok h
    cases h
    rw [Option.getD_some, length_of_takeBytes hl]
    exact fitsNat_of_takeNat hn

/-- Whatever the HOST channel decodes has operands that fit their bytes (R310, log 15). -/
theorem wellFormed_of_decodeHost {sel : Byte} {bs rest : List Byte} {i : Instr}
    (h : decodeHost sel bs = .ok (i, rest)) : i.wellFormed = true := by
  unfold decodeHost at h
  split at h
  case h_1 => -- configureRAM
    obtain ⟨⟨size, bs1⟩, hsize, h⟩ := bind_eq_ok h
    obtain ⟨⟨fp, bs2⟩, hfp, h⟩ := bind_eq_ok h
    cases h
    rw [Instr.wellFormed, fitsInt_of_takeInt hsize, fitsNat_of_takeNat hfp]
    rfl
  case h_2 => -- loadROM
    obtain ⟨⟨bank, bs1⟩, hbank, h⟩ := bind_eq_ok h
    obtain ⟨⟨offset, bs2⟩, hoffset, h⟩ := bind_eq_ok h
    obtain ⟨⟨length, bs3⟩, hlength, h⟩ := bind_eq_ok h
    obtain ⟨⟨data, bs4⟩, hdata, h⟩ := bind_eq_ok h
    cases h
    rw [Instr.wellFormed, fitsInt_of_takeInt hbank, fitsInt_of_takeInt hoffset, fitsInt_of_takeInt hlength,
      fitsNat_of_takeRomBytes hdata]
    rfl
  case h_3 => -- resolve
    obtain ⟨⟨kind, bs1⟩, -, h⟩ := bind_eq_ok h
    obtain ⟨⟨a, bs2⟩, -, h⟩ := bind_eq_ok h
    cases h
    rfl
  case h_4 | h_5 => -- getSegmentKind, run
    obtain ⟨⟨n, bs1⟩, hn, h⟩ := bind_eq_ok h
    cases h
    exact fitsInt_of_takeInt hn
  case h_8 => -- loadState
    obtain ⟨⟨k, bs1⟩, hk, h⟩ := bind_eq_ok h
    cases h
    exact fitsNat_of_takeNat hk
  case h_9 => -- registerCallback
    obtain ⟨⟨cb, bs1⟩, hcb, h⟩ := bind_eq_ok h
    obtain ⟨⟨ud, bs2⟩, hud, h⟩ := bind_eq_ok h
    cases h
    rw [Instr.wellFormed, fitsNat_of_takeNat hcb, fitsNat_of_takeNat hud]
    rfl
  case h_10 => -- writeRegister
    obtain ⟨⟨o, bs1⟩, -, h⟩ := bind_eq_ok h
    obtain ⟨⟨v, bs2⟩, -, h⟩ := bind_eq_ok h
    cases h
    rfl
  case h_6 | h_11 => -- reset, readRegister
    obtain ⟨⟨b, bs1⟩, -, h⟩ := bind_eq_ok h
    cases h
    rfl
  case h_17 => cases h -- no call
  all_goals -- saveState and the reserved selectors, without operands
    cases h
    rfl

/-! ## STEP, EVENT and RENDER words (R320, R330, R340) -/

theorem eq_ofNat_of_toNat {b : Byte} {n : Nat} (h : b.toNat = n) : b = BitVec.ofNat 8 n := by
  rw [← h, BitVec.ofNat_toNat, BitVec.setWidth_eq]

theorem reencode_of_decodeStep {b : Byte} {i : Instr} (h : decodeStep b = .ok i) :
    i.wellFormed = true ∧ encode i = ⟨.step, [b]⟩ := by
  unfold decodeStep at h
  split at h
  case h_5 => cases h
  all_goals
    rename_i hb
    cases h
    rw [eq_ofNat_of_toNat hb]
    exact ⟨rfl, rfl⟩

theorem reencode_of_decodeEvent {b : Byte} {i : Instr} (h : decodeEvent b = .ok i) :
    i.wellFormed = true ∧ encode i = ⟨.event, [b]⟩ := by
  unfold decodeEvent at h
  split at h
  case h_33 => cases h
  all_goals
    rename_i hb
    cases h
    rw [eq_ofNat_of_toNat hb]
    exact ⟨rfl, rfl⟩

/-- The 32 keys of R340, each with the operation that stands for it. -/
theorem reencode_of_decodeRender {k : Byte} {i : Instr} (h : decodeRender k = .ok i) :
    i.wellFormed = true ∧ encode i = ⟨.render, [k]⟩ := by
  have hkey : k.toNat < 32 := by
    by_contra hwide
    rw [decodeRender, if_pos (Nat.not_lt.1 hwide)] at h
    cases h
  obtain ⟨n, hn⟩ : ∃ n : Fin 32, k = BitVec.ofNat 8 n := ⟨⟨k.toNat, hkey⟩, eq_ofNat_of_toNat rfl⟩
  subst hn
  fin_cases n <;> (cases h; exact ⟨rfl, rfl⟩)

theorem decodeRender_blank (border : Bool) (mode : BitVec 3) :
    decodeRender (1#4 ++ (BitVec.ofBool border ++ mode)) = .ok (.renderBlank border mode) := by
  obtain ⟨mode⟩ := mode
  cases border <;> fin_cases mode <;> rfl

theorem decodeRender_border (mode : BitVec 3) : decodeRender (1#5 ++ mode) = .ok (.renderBorder mode) := by
  obtain ⟨mode⟩ := mode
  fin_cases mode <;> rfl

/-- On a channel of one-byte words the encoder writes the word again. -/
theorem reencode_of_oneByteWord {f : Fmt} {dec : Byte → Except DecodeError Instr}
    (hdec : ∀ {b i}, dec b = .ok i → i.wellFormed = true ∧ encode i = ⟨f, [b]⟩) {b : Byte} {bs rest : List Byte}
    {i : Instr} (h : (dec b).map (·, bs) = .ok (i, rest)) :
    i.wellFormed = true ∧ encode i = ⟨f, (encode i).bytes⟩ ∧ b :: bs = (encode i).bytes ++ rest := by
  obtain ⟨j, hj, hjr⟩ := map_eq_ok h
  cases hjr
  obtain ⟨hwf, henc⟩ := hdec hj
  rw [henc]
  exact ⟨hwf, rfl, rfl⟩

/-- Settles O2: the decoder of each channel, inverted. -/
theorem decodedWordsReencode : Obligations.DecodedWordsReencode := by
  intro f bs rest i h
  cases f with
  | bus =>
    obtain ⟨a, rfl, hbs⟩ | ⟨a, v, rfl, hbs⟩ := decodeBus_inv h
    · rw [encode_decodeBusRead]
      exact ⟨wellFormed_decodeBusRead a, fun _ => ⟨rfl, hbs⟩⟩
    · rw [encode_decodeBusWrite]
      exact ⟨wellFormed_decodeBusWrite a v, fun _ => ⟨rfl, hbs⟩⟩
  | host =>
    cases bs with
    | nil => cases h
    | cons sel bs => exact ⟨wellFormed_of_decodeHost h, fun hf => absurd rfl hf⟩
  | step =>
    cases bs with
    | nil => cases h
    | cons b bs => exact (reencode_of_oneByteWord reencode_of_decodeStep h).imp_right fun hre _ => hre
  | event =>
    cases bs with
    | nil => cases h
    | cons b bs => exact (reencode_of_oneByteWord reencode_of_decodeEvent h).imp_right fun hre _ => hre
  | render =>
    cases bs with
    | nil => cases h
    | cons b bs => exact (reencode_of_oneByteWord reencode_of_decodeRender h).imp_right fun hre _ => hre

/-! ## The operands of a host call read back -/

/-- A computation whose first part succeeds goes on with its value. -/
theorem ok_bind {ε α β : Type} (a : α) (f : α → Except ε β) : (Except.ok a >>= f) = f a := rfl

theorem decodeHost_configureRAM {size : Int} {fp : Nat} (hsize : fitsInt size = true) (hfp : fitsNat fp = true)
    (tail : List Byte) :
    decodeHost 0x0 (encodeInt size ++ encodeNat fp ++ tail) = .ok (.hostConfigureRAM size fp, tail) := by
  rw [List.append_assoc]
  change (takeInt _ >>= _) = _
  simp only [takeInt_encodeInt hsize, takeNat_encodeNat hfp, ok_bind]
  rfl

theorem decodeHost_loadROM {bank offset length : Int} {data : Option (List Byte)} (hbank : fitsInt bank = true)
    (hoffset : fitsInt offset = true) (hlength : fitsInt length = true)
    (hdata : fitsNat ((data.getD []).length) = true) (tail : List Byte) :
    decodeHost 0x1 (encodeInt bank ++ encodeInt offset ++ encodeInt length ++ encodeRomBytes data ++ tail) =
      .ok (.hostLoadROM bank offset length data, tail) := by
  simp only [List.append_assoc]
  change (takeInt _ >>= _) = _
  simp only [takeInt_encodeInt hbank, takeInt_encodeInt hoffset, takeInt_encodeInt hlength,
    takeRomBytes_encode hdata, ok_bind]
  rfl

theorem decodeHost_resolve (kind : AccessKind) (a : Addr) (tail : List Byte) :
    decodeHost 0x2 (kindCode kind :: (encodeAddr a ++ tail)) = .ok (.hostResolve kind a, tail) := by
  change (takeByte _ >>= _) = _
  simp only [takeByte, takeAddr_encodeAddr, ok_bind, kindOf_kindCode]
  rfl

theorem decodeHost_getSegmentKind {slot : Int} (h : fitsInt slot = true) (tail : List Byte) :
    decodeHost 0x3 (encodeInt slot ++ tail) = .ok (.hostGetSegmentKind slot, tail) := by
  change (takeInt _ >>= _) = _
  rw [takeInt_encodeInt h]
  rfl

theorem decodeHost_run {ticks : Int} (h : fitsInt ticks = true) (tail : List Byte) :
    decodeHost 0x4 (encodeInt ticks ++ tail) = .ok (.hostRun ticks, tail) := by
  change (takeInt _ >>= _) = _
  rw [takeInt_encodeInt h]
  rfl

theorem decodeHost_loadState {k : Nat} (h : fitsNat k = true) (tail : List Byte) :
    decodeHost 0x7 (encodeNat k ++ tail) = .ok (.hostLoadState k, tail) := by
  change (takeNat _ >>= _) = _
  rw [takeNat_encodeNat h]
  rfl

theorem decodeHost_registerCallback {cb ud : Nat} (hcb : fitsNat cb = true) (hud : fitsNat ud = true)
    (tail : List Byte) :
    decodeHost 0x8 (encodeNat cb ++ encodeNat ud ++ tail) = .ok (.hostRegisterCallback cb ud, tail) := by
  rw [List.append_assoc]
  change (takeNat _ >>= _) = _
  simp only [takeNat_encodeNat hcb, takeNat_encodeNat hud, ok_bind]
  rfl

/-- A register offset in a byte is its low five bits (R311). -/
theorem offset_setWidth (o : BitVec 5) : (o.setWidth 8).extractLsb' 0 5 = o := by
  revert o
  decide

theorem decodeHost_writeRegister (o : BitVec 5) (v : Byte) (tail : List Byte) :
    decodeHost 0x9 (o.setWidth 8 :: v :: tail) = .ok (.hostWriteRegister o v, tail) := by
  change Except.ok (Instr.hostWriteRegister ((o.setWidth 8).extractLsb' 0 5) v, tail) = _
  rw [offset_setWidth]

theorem decodeHost_readRegister (o : BitVec 5) (tail : List Byte) :
    decodeHost 0xA (o.setWidth 8 :: tail) = .ok (.hostReadRegister o, tail) := by
  change Except.ok (Instr.hostReadRegister ((o.setWidth 8).extractLsb' 0 5), tail) = _
  rw [offset_setWidth]

theorem decode_read_row {a : Addr} {i : Instr} (h : decodeBusRead a = i) (tail : List Byte) :
    decode .bus ((busReadBytes a).bytes ++ tail) = .ok (i, tail) := h ▸ decodeBus_read a tail

theorem decode_write_row {a : Addr} {v : Byte} {i : Instr} (h : decodeBusWrite a v = i) (tail : List Byte) :
    decode .bus ((busWriteBytes a v).bytes ++ tail) = .ok (i, tail) := h ▸ decodeBus_write a v tail

/-- Settles O1: each operation by its format. The well-formedness of a memory or I/O row says that no earlier row of R301
takes its address, that of a host call that its numbers fit their bytes. -/
theorem encodedOperationsDecode : Obligations.EncodedOperationsDecode := by
  intro i tail hwf
  cases i with
  | rdFF00 | rdFF01 | rdFF02 | rdFF03 | rdFF04 | rdFF05 | rdFF06 | rdFF07 | rdFF08 | rdFF09 | rdFF0A | rdFF0B | rdFF0C
  | rdFF0D | rdFF0E | rdFF0F | rdFF10 | rdFF11 | rdFF12 | rdFF13 | rdFF14 | rdFF15 | rdFF16 | rdFF17 | rdFF18 | rdFF19
  | rdFF1A | rdFF1B | rdFF1C | rdFF1D | rdFF1E | rdFF1F => exact decodeBus_read _ tail
  | wrFF00 v | wrFF01 v | wrFF02 v | wrFF03 v | wrFF04 v | wrFF05 v | wrFF06 v | wrFF07 v | wrFF08 v | wrFF09 v
  | wrFF0A v | wrFF0B v | wrFF0C v | wrFF0D v | wrFF0E v | wrFF0F v | wrFF10 v | wrFF11 v | wrFF12 v | wrFF13 v
  | wrFF14 v | wrFF15 v | wrFF16 v | wrFF17 v | wrFF18 v | wrFF19 v | wrFF1A v | wrFF1B v | wrFF1C v | wrFF1D v
  | wrFF1E v | wrFF1F v | wrFF3E v | wrFF3F v => exact decodeBus_write _ v tail
  | wrFDDx x v => exact decode_write_row (decodeBusWrite_bankLatch x v) tail
  | ioRdFD lo => exact decode_read_row (decodeBusRead_pageFD lo) tail
  | ioRdFE lo => exact decode_read_row (decodeBusRead_pageFE lo) tail
  | ioWrFD lo v => exact decode_write_row (decodeBusWrite_pageFD v (wellFormed_ioWrFD_iff.1 hwf)) tail
  | ioWrFE lo v => exact decode_write_row (decodeBusWrite_pageFE lo v) tail
  | memRd a =>
    obtain ⟨hblock, hio⟩ := wellFormed_memRd_iff.1 hwf
    exact decode_read_row (decodeBusRead_memory hblock hio) tail
  | memWr a v =>
    obtain ⟨hblock, hio, hrom⟩ := wellFormed_memWr_iff.1 hwf
    exact decode_write_row (decodeBusWrite_memory v hblock hio hrom) tail
  | hostConfigureRAM size fp =>
    obtain ⟨hsize, hfp⟩ := Bool.and_eq_true_iff.1 hwf
    exact decodeHost_configureRAM hsize hfp tail
  | hostLoadROM bank offset length data =>
    obtain ⟨hnumbers, hdata⟩ := Bool.and_eq_true_iff.1 hwf
    obtain ⟨hbankOffset, hlength⟩ := Bool.and_eq_true_iff.1 hnumbers
    obtain ⟨hbank, hoffset⟩ := Bool.and_eq_true_iff.1 hbankOffset
    exact decodeHost_loadROM hbank hoffset hlength hdata tail
  | hostResolve kind a => exact decodeHost_resolve kind a tail
  | hostGetSegmentKind slot => exact decodeHost_getSegmentKind hwf tail
  | hostRun ticks => exact decodeHost_run hwf tail
  | hostReset cold => cases cold <;> rfl
  | hostLoadState k => exact decodeHost_loadState hwf tail
  | hostRegisterCallback cb ud =>
    obtain ⟨hcb, hud⟩ := Bool.and_eq_true_iff.1 hwf
    exact decodeHost_registerCallback hcb hud tail
  | hostWriteRegister o v => exact decodeHost_writeRegister o v tail
  | hostReadRegister o => exact decodeHost_readRegister o tail
  | renderBlank border mode => exact congrArg (Except.map (·, tail)) (decodeRender_blank border mode)
  | renderBorder mode => exact congrArg (Except.map (·, tail)) (decodeRender_border mode)
  | _ => rfl -- the words without an operand

/-! ## The accesses of the CPU (R301, R830) -/

theorem inRegisterBlock_append (o : BitVec 5) : inRegisterBlock (0x7F8#11 ++ o) = true :=
  (block_iff _).1 BitVec.extractLsb'_append_eq_left

theorem inIoRange_pageFD (lo : Byte) : inIoRange (0xFD#8 ++ lo) = true :=
  (ioRange_iff _).1 (.inl BitVec.extractLsb'_append_eq_left)

theorem inIoRange_pageFE (lo : Byte) : inIoRange (0xFE#8 ++ lo) = true :=
  (ioRange_iff _).1 (.inr BitVec.extractLsb'_append_eq_left)

theorem inRegisterBlock_iff {a : Addr} : inRegisterBlock a = true ↔ 0xFF00 ≤ a.toNat ∧ a.toNat ≤ 0xFF1F := by
  rw [inRegisterBlock, Bool.and_eq_true, decide_eq_true_eq, decide_eq_true_eq]

theorem inIoRange_iff {a : Addr} : inIoRange a = true ↔ 0xFD00 ≤ a.toNat ∧ a.toNat ≤ 0xFEFF := by
  rw [inIoRange, Bool.and_eq_true, decide_eq_true_eq, decide_eq_true_eq]

theorem busRead_block (o : BitVec 5) (c : Chip) : busRead (0x7F8#11 ++ o) c = cpuReadReg o.toFin c := by
  rw [busRead, if_pos (inRegisterBlock_iff.1 (inRegisterBlock_append o)), field, BitVec.extractLsb'_append_eq_right]

theorem busRead_ioRange {a : Addr} (h : inIoRange a = true) (c : Chip) : busRead a c = ioRead a c := by
  rw [inIoRange_iff] at h
  rw [busRead, if_neg (by omega), if_pos h]

theorem busRead_memory {a : Addr} (hblock : inRegisterBlock a = false) (hio : inIoRange a = false) (c : Chip) :
    busRead a c = cpuMemRead a c := by
  rw [← Bool.not_eq_true, inRegisterBlock_iff] at hblock
  rw [← Bool.not_eq_true, inIoRange_iff] at hio
  rw [busRead, if_neg hblock, if_neg hio]

theorem busWrite_block (o : BitVec 5) (v : Byte) (c : Chip) :
    busWrite (0x7F8#11 ++ o) v c = cpuWriteReg o.toFin v c := by
  rw [busWrite, if_pos (inRegisterBlock_iff.1 (inRegisterBlock_append o)), field, BitVec.extractLsb'_append_eq_right]

theorem busWrite_bankLatch (x : BitVec 4) (v : Byte) (c : Chip) :
    busWrite (0xFDD#12 ++ x) v c = cpuSetBanks x v c := by
  have hlatch := (bankLatch_iff (0xFDD#12 ++ x)).1 BitVec.extractLsb'_append_eq_left
  rw [busWrite, if_neg (by omega), if_neg (by omega), if_neg (by omega), if_pos hlatch, field,
    BitVec.extractLsb'_append_eq_right]

theorem busWrite_ioRange {a : Addr} (v : Byte) (c : Chip) (h : inIoRange a = true)
    (hbank : a.extractLsb' 4 12 ≠ 0xFDD#12) : busWrite a v c = ioWrite a v c := by
  rw [inIoRange_iff] at h
  rw [Ne, bankLatch_iff] at hbank
  rw [busWrite, if_neg (by omega), if_neg (by omega), if_neg (by omega), if_neg hbank, if_pos h]

theorem busWrite_memory {a : Addr} (v : Byte) (c : Chip) (hblock : inRegisterBlock a = false)
    (hio : inIoRange a = false) (hrom : isRomLatch a = false) : busWrite a v c = cpuMemWrite a v c := by
  rw [← Bool.not_eq_true, inRegisterBlock_iff] at hblock
  rw [← Bool.not_eq_true, inIoRange_iff] at hio
  simp only [isRomLatch, Bool.or_eq_false_iff, decide_eq_false_iff_not] at hrom
  obtain ⟨hon, hoff⟩ := hrom
  rw [busWrite, if_neg hblock, if_neg hon, if_neg hoff, if_neg (by omega), if_neg hio]

theorem exec_decodeBusRead (a : Addr) (s : State) : exec (decodeBusRead a) s = s.chipStep (busRead a) := by
  rw [State.chipStep, State.onChip]
  obtain ⟨o, rfl, h⟩ | ⟨lo, rfl, h⟩ | ⟨lo, rfl, h⟩ | ⟨hblock, hio, h⟩ := decodeBusRead_cases a <;> rw [h]
  · rw [exec_readRow, busRead_block]; rfl
  · rw [busRead_ioRange (inIoRange_pageFD lo)]; rfl
  · rw [busRead_ioRange (inIoRange_pageFE lo)]; rfl
  · rw [busRead_memory hblock hio]; rfl

theorem exec_decodeBusWrite (a : Addr) (v : Byte) (s : State) :
    exec (decodeBusWrite a v) s = s.chipStep (busWrite a v) := by
  rw [State.chipStep, State.onChip]
  obtain ⟨o, rfl, h⟩ | ⟨rfl, h⟩ | ⟨rfl, h⟩ | ⟨x, rfl, h⟩ | ⟨lo, rfl, hlow, h⟩ | ⟨lo, rfl, h⟩ | ⟨hblock, hio, hrom, h⟩ :=
    decodeBusWrite_cases a v <;> rw [h]
  · rw [exec_writeRow, busWrite_block]; rfl
  · rfl
  · rfl
  · rw [busWrite_bankLatch]; rfl
  · rw [← Bool.not_eq_true, ← bankLatch_pageFD] at hlow
    rw [busWrite_ioRange v _ (inIoRange_pageFD lo) hlow]; rfl
  · rw [busWrite_ioRange v _ (inIoRange_pageFE lo) (mt page_of_bankLatch (page_ne (by decide)))]; rfl
  · rw [busWrite_memory v _ hblock hio hrom]; rfl

/-- Settles O5: row by row, the meaning of a row is the access at its address. -/
theorem cpuAccessesAreBusRows : Obligations.CpuAccessesAreBusRows := ⟨exec_decodeBusRead, exec_decodeBusWrite⟩

/-! ## One step of the host's queue (log 14) -/

/-- Settles O3: each word is decoded. -/
theorem tableWordsDecode : Obligations.TableWordsDecode :=
  ⟨rfl, rfl, rfl, rfl, rfl, rfl, rfl, rfl, rfl, rfl, rfl⟩

/-- Settles O4: one clause for each form of the queue's head. -/
theorem stepRunsTheQueuedOperation : Obligations.StepRunsTheQueuedOperation := by
  refine ⟨fun s op rest i tail hq hdec => ?_, fun s n rest hq => ?_, fun s hq => ?_, fun s op rest e hq hdec => ?_⟩
  · simp only [step, hq, hdec]
    rfl
  · simp only [step, hq]
    rfl
  · simp only [step, hq]
  · simp only [step, hq, hdec]

/-- Settles O42: a reserved bit has no micro-operation. -/
theorem reservedOperations : Obligations.ReservedOperations := by
  refine ⟨fun s i hi => ?_, fun s i hi => ?_⟩
  · fin_cases hi <;> rfl
  · fin_cases hi <;> rfl

/-! ## run(), unrolled (R800, R803, R391) -/

/-- Fuel that covers the budget is enough: more of it changes nothing. -/
theorem runLoop_eq_of_fuel {f g : Nat} {b : Int} (c : Chip) (hf : b ≤ f) (hg : b ≤ g) :
    runLoop f b c = runLoop g b c := by
  induction f generalizing g b c with
  | zero => rw [runLoop_of_nonpos 0 c (by omega), runLoop_of_nonpos g c (by omega)]
  | succ f ih =>
    by_cases hpos : 0 < b
    · have hticks := cycleTicks_pos c.seq.ntsc
      obtain ⟨g, rfl⟩ : ∃ k, g = k + 1 := ⟨g - 1, by omega⟩
      rw [runLoop_of_pos f c hpos, runLoop_of_pos g c hpos]
      exact ih (cycle c) (by omega) (by omega)
    · rw [runLoop_of_nonpos _ c (by omega), runLoop_of_nonpos g c (by omega)]

/-- A positive budget runs one cycle and goes on with the rest. -/
theorem runBudget_of_pos {b : Int} (c : Chip) (h : 0 < b) :
    runBudget b c = runBudget (b - cycleTicks c.seq.ntsc) (cycle c) := by
  have hticks := cycleTicks_pos c.seq.ntsc
  obtain ⟨k, hk⟩ : ∃ k, b.toNat = k + 1 := ⟨b.toNat - 1, by omega⟩
  rw [runBudget, hk, runLoop_of_pos k c h]
  exact runLoop_eq_of_fuel (cycle c) (by omega) (by omega)

/-- `n` times the ticks of a cycle run exactly `n` cycles, where each of them has these ticks (R391). -/
theorem runBudget_mul_ticks {t : Int} (n : Nat) (c : Chip)
    (h : ∀ j < n, cycleTicks (cycle^[j] c).seq.ntsc = t) : runBudget (n * t) c = (0, cycle^[n] c) := by
  induction n generalizing c with
  | zero =>
    rw [Nat.cast_zero, zero_mul]
    exact runBudget_of_nonpos c le_rfl
  | succ n ih =>
    have hfirst : cycleTicks c.seq.ntsc = t := h 0 n.succ_pos
    have hpos : 0 < t := hfirst ▸ cycleTicks_pos c.seq.ntsc
    have hbudget : ((n + 1 : Nat) : Int) * t = n * t + t := by rw [Nat.cast_succ, add_mul, one_mul]
    have hrest : 0 ≤ (n : Int) * t := mul_nonneg n.cast_nonneg hpos.le
    rw [hbudget, runBudget_of_pos c (by omega), hfirst, add_sub_cancel_right]
    exact ih (cycle c) fun j hj => h (j + 1) (Nat.succ_lt_succ hj)

theorem execHostRun_of_neg {n : Int} (s : State) (h : n < 0) :
    execHostRun n s = .next (s.raise .invalidArgument) := if_pos h

/-- A run whose budget is positive goes on, after one cycle, with the rest of it (R800). -/
theorem execHostRun_of_pos {n : Int} (s : State) (hn : 0 ≤ n) (h : 0 < s.tickBudget + n) :
    execHostRun n s = execHostRun 0 { s with
      chip := cycle s.chip
      tickBudget := s.tickBudget + n - cycleTicks s.chip.seq.ntsc } := by
  rw [execHostRun_of_nonneg s hn, execHostRun_of_nonneg _ le_rfl, runBudget_of_pos s.chip h, add_zero]

theorem chip_of_chipStep {s t : State} {f : Chip → Chip} (h : s.chipStep f = .next t) : t.chip = f s.chip := by
  cases h
  rfl

/-- The DAC forcing is done in DAC mode, which is a bit of register 0x11. -/
theorem dacStep_eq (c : Chip) : dacStep c = if c.rf.regs[0x11].getLsbD 7 then dacForce c else c := rfl

/-- Settles O14: the three outcomes of a call, a call of exactly `n` cycles, and the cycle in its STEP rows. -/
theorem runUnrollsCycles : Obligations.RunUnrollsCycles := by
  refine ⟨fun s n => ⟨execHostRun_of_neg s, fun hn hb => ?_, execHostRun_of_pos s⟩, fun s n hcarry hstd => ?_, ?_⟩
  · refine (execHostRun_of_nonneg s hn).trans ?_
    rw [runBudget_of_nonpos s.chip hb]
    rfl
  · have hrun : runBudget (n * cycleTicks s.chip.seq.ntsc) s.chip = (0, cycle^[n] s.chip) :=
      runBudget_mul_ticks n s.chip fun j hj => congrArg cycleTicks (hstd j hj)
    have hticks : 0 ≤ (n : Int) * cycleTicks s.chip.seq.ntsc := mul_nonneg n.cast_nonneg (cycleTicks_pos _).le
    refine (execHostRun_of_nonneg s hticks).trans ?_
    rw [hcarry, zero_add, hrun, ← hcarry]
    rfl
  · intro s s1 s2 s3 heven hodd hdac c d u htick
    have h1 : s1.chip = phaseEven s.chip := chip_of_chipStep heven
    have h2 : s2.chip = phaseOdd s1.chip := chip_of_chipStep hodd
    have h3 : s3.chip = dacForce s2.chip := chip_of_chipStep hdac
    have hc : c = dacStep s2.chip := by rw [dacStep_eq, ← h3]
    have hu : u.chip = soundTick d := chip_of_chipStep htick
    rw [hu, cycle, cycleEnd, ← h1, ← h2, ← hc]
    rfl

/-! ## The dispatch (R720) -/

theorem runEvents_eq_foldl (p : Phase) (m : BitVec 32) (bs : List Nat) (c : Chip) :
    runEvents p m bs c = bs.foldl (fun d b => if bit m b then microOp p b d else d) c := by
  induction bs generalizing c with
  | nil => rfl
  | cons b bs ih => exact ih _

/-! ### No default micro-operation schedules (R712) -/

theorem evMask_of_rf {c c' : Chip} (h : c'.rf = c.rf) (q : Phase) : c'.evMask q = c.evMask q := by
  cases q <;> simp only [Chip.evMask, h]

theorem loadHpos_evMask (p q : Phase) (c : Chip) : (loadHpos p c).evMask q = c.evMask q := by
  unfold loadHpos
  split
  · rfl
  · dsimp only
    split <;> cases q <;> rfl

theorem applyPend1A_evMask (q : Phase) (c : Chip) : (applyPend1A c).evMask q = c.evMask q := by
  unfold applyPend1A
  split
  · rfl
  · cases q <;> rfl

theorem applyPend1B_evMask (q : Phase) (c : Chip) : (applyPend1B c).evMask q = c.evMask q := by
  unfold applyPend1B
  split
  · rfl
  · cases q <;> rfl

theorem loadVsub_evMask (q : Phase) (c : Chip) : (loadVsub c).evMask q = c.evMask q := by
  unfold loadVsub
  split
  · rfl
  · cases q <;> rfl

theorem verticalWindow_rf (c : Chip) : (verticalWindow c).rf = c.rf := by
  unfold verticalWindow
  dsimp only
  split_ifs <;> rfl

theorem frameStart_evMask (q : Phase) (c : Chip) : (frameStart c).evMask q = c.evMask q := by
  unfold frameStart
  split
  · cases q <;> rfl
  · rfl

theorem compareRaster_rf (c : Chip) : (compareRaster c).rf = c.rf := by
  unfold compareRaster
  split <;> rfl

theorem defaultIncLine_evMask (q : Phase) (c : Chip) : (defaultIncLine c).evMask q = c.evMask q := by
  rw [defaultIncLine, evMask_of_rf (compareRaster_rf _), frameStart_evMask, evMask_of_rf (verticalWindow_rf _)]
  exact evMask_of_rf rfl q

theorem defaultVsubUpdate_evMask (q : Phase) (c : Chip) : (defaultVsubUpdate c).evMask q = c.evMask q := by
  simp only [defaultVsubUpdate]
  split_ifs <;> cases q <;> rfl

theorem stopDma_evMask (q : Phase) (c : Chip) : (stopDma c).evMask q = c.evMask q := by
  simp only [stopDma]
  split <;> cases q <;> rfl

/-- Under the default line operations no micro-operation changes a mask. -/
theorem microOp_evMask (p q : Phase) (b : Nat) {c : Chip} (hinc : c.cfg.incLineLaw = none)
    (hvsub : c.cfg.vsubLaw = none) : (microOp p b c).evMask q = c.evMask q := by
  unfold microOp
  split
  · exact loadHpos_evMask p q c
  · rw [loadCposReload, applyPend1B_evMask, applyPend1A_evMask]
  · exact loadVsub_evMask q c
  · rw [incVideoLine, hinc]
    exact defaultIncLine_evMask q c
  · rw [updateVsub, hvsub]
    exact defaultVsubUpdate_evMask q c
  · exact evMask_of_rf rfl q
  · exact stopDma_evMask q c
  · rfl

theorem runEvents_evMask (p q : Phase) (m : BitVec 32) (bs : List Nat) {c : Chip} (hinc : c.cfg.incLineLaw = none)
    (hvsub : c.cfg.vsubLaw = none) : (runEvents p m bs c).evMask q = c.evMask q := by
  induction bs generalizing c with
  | nil => rfl
  | cons b bs ih =>
    rw [runEvents]
    split
    · have hcfg := (evolves_microOp p b c).cfg
      rw [ih (by rw [hcfg, hinc]) (by rw [hcfg, hvsub]), microOp_evMask p q b hinc hvsub]
    · exact ih hinc hvsub

theorem dispatch_evMask (p q : Phase) {c : Chip} (hinc : c.cfg.incLineLaw = none) (hvsub : c.cfg.vsubLaw = none) :
    (dispatch p c).evMask q = if q = p then 0 else c.evMask q := by
  rw [dispatch, runEvents_evMask p q _ _ (by rwa [setEvMask_cfg]) (by rwa [setEvMask_cfg]), evMask_setEvMask]

/-- Settles O36: the order is that of the list, the masks are those of the emptied chip, and an EVENT row is its bit's
micro-operation. -/
theorem dispatchRunsAndClearsTheMask : Obligations.DispatchRunsAndClearsTheMask := by
  refine ⟨fun p c => ⟨?_, fun hinc hvsub => ⟨?_, ?_⟩⟩, fun s e he => ?_⟩
  · rw [dispatch, runEvents_eq_foldl]
    cases p <;> rfl
  · rw [dispatch_evMask p p hinc hvsub, if_pos rfl]
  · rw [dispatch_evMask p p.other hinc hvsub, if_neg (by cases p <;> decide)]
  · fin_cases he <;> rfl

end Sys2Proof.Proofs

/-! # Proofs: configureRAM, loadROM, the segment layout, and the calls that look something up -/

namespace Sys2Proof.Proofs

open Sys2Proof.Machine Sys2Proof.Laws

/-! ## configureRAM -/

/-! ### The storage it leaves -/

/-- What stands in a slot that held no RAM is made new by configureRAM (R400). -/
theorem ramSegment_of_not_isRam (size fp : Nat) {m : Memory} {k : Nat} (hram : m.isRam k = false) :
    ramSegment size fp (m.seg k) = .ram size fp := by
  cases hseg : m.seg k with
  | none => rfl
  | some sg =>
    cases sg with
    | rom d => rfl
    | ram s f =>
      rw [(isRam_eq m k).2 ⟨s, f, hseg⟩] at hram
      cases hram

/-- A slot of RAMSET keeps its written bytes where it was RAM, and forgets them else (R400). -/
theorem configured_cells_of_mem {p : Params} {size : Nat} (fp : Nat) (m : Memory) {k x : Nat} (hk : k ∈ ramSet p size)
    (hx : x / Config.segSize = k) :
    assocGet (configuredMem p size fp m).cells x = if m.isRam k then assocGet m.cells x else none := by
  have hcontains : (ramSet p size).contains k = true := by simpa using hk
  rw [configured_cells, hx, hcontains]
  rfl

section
variable {p : Params} (hv : p.valid = true) {size : Nat} (hsize : size ∈ Config.ramSizes) (fp : Nat) {m : Memory} {k : Nat}
include hv hsize

/-- Outside RAMSET nothing stands but ROM (R400). -/
theorem configured_absent (hk : k ∉ ramSet p size) (hrom : m.isRom k = false) :
    (configuredMem p size fp m).seg k = none ∧
      ∀ x, x / Config.segSize = k → assocGet (configuredMem p size fp m).cells x = none := by
  refine ⟨by rw [configured_seg hv hsize, if_neg hk, hrom]; rfl, fun x hx => ?_⟩
  have hcontains : (ramSet p size).contains k = false := by simpa using hk
  rw [configured_cells, hx, hcontains, hrom]
  rfl

/-- configureRAM makes RAM of RAMSET and of nothing else (R400). -/
theorem configured_isRam : (configuredMem p size fp m).isRam k = true ↔ k ∈ ramSet p size := by
  by_cases hk : k ∈ ramSet p size
  · refine iff_of_true ?_ hk
    rw [Memory.isRam, configured_seg hv hsize, if_pos hk, Option.map_some, ramSegment_isRam, Option.getD_some]
  · refine iff_of_false (fun hram => ?_) hk
    cases hrom : m.isRom k with
    | true =>
      rw [isRam_of_isRom ((keepsSlot_configuredMem hv hsize fp hrom hk).isRom_eq.trans hrom)] at hram
      cases hram
    | false =>
      rw [Memory.isRam, (configured_absent hv hsize fp hk hrom).1] at hram
      cases hram

/-- ROM stays where RAMSET does not come (R400, R406, log 26). -/
theorem configured_isRom :
    (configuredMem p size fp m).isRom k = true ↔ m.isRom k = true ∧ k ∉ ramSet p size := by
  by_cases hk : k ∈ ramSet p size
  · refine iff_of_false (fun hrom => ?_) (fun h => h.2 hk)
    have hram := (configured_isRam hv hsize fp (m := m)).2 hk
    rw [isRam_of_isRom hrom] at hram
    cases hram
  · cases hrom : m.isRom k with
    | true => simp only [(keepsSlot_configuredMem hv hsize fp hrom hk).isRom_eq, hrom, hk, not_false_eq_true, and_self]
    | false => simp [Memory.isRom, (configured_absent hv hsize fp hk hrom).1]

/-- A RAM segment of the new RAMSET keeps its segment and its bytes (R400). -/
theorem keepsSlot_configuredMem_of_ram (hram : m.isRam k = true) (hk : k ∈ ramSet p size) :
    KeepsSlot k m (configuredMem p size fp m) where
  seg := by
    obtain ⟨s, f, hseg⟩ := (isRam_eq m k).1 hram
    rw [configured_seg hv hsize, if_pos hk, hseg]
    rfl
  cells x hx := by rw [configured_cells_of_mem fp m hk hx, if_pos hram]

/-- A new RAM segment holds the fill pattern's function (R403). -/
theorem configured_read_of_new (hram : m.isRam k = false) (hk : k ∈ ramSet p size) {off : Nat}
    (hoff : off < Config.segSize) :
    (configuredMem p size fp m).read k off = some (Config.ramFill size fp k off) := by
  have hseg : (configuredMem p size fp m).seg k = some (.ram size fp) := by
    rw [configured_seg hv hsize, if_pos hk, ramSegment_of_not_isRam size fp hram]
  have hcell : assocGet (configuredMem p size fp m).cells (cellAddr k off) = none := by
    rw [configured_cells_of_mem fp m hk (cellAddr_div k off hoff), hram]
    rfl
  rw [Memory.read, hseg, hcell]
  rfl

/-- Configuring the same RAM again changes nothing (R405). -/
theorem configuredMem_idem (hm : m.wf = true) :
    configuredMem p size fp (configuredMem p size fp m) = configuredMem p size fp m := by
  have hwf := wf_configured hv hsize fp hm
  have hkeeps : ∀ k, KeepsSlot k (configuredMem p size fp m) (configuredMem p size fp (configuredMem p size fp m)) :=
    fun k => by
      by_cases hk : k ∈ ramSet p size
      · exact keepsSlot_configuredMem_of_ram hv hsize fp ((configured_isRam hv hsize fp).2 hk) hk
      · cases hrom : (configuredMem p size fp m).isRom k with
        | true => exact keepsSlot_configuredMem hv hsize fp hrom hk
        | false =>
          have hold : m.isRom k = false :=
            Bool.eq_false_iff.2 fun h => Bool.eq_false_iff.1 hrom ((configured_isRom hv hsize fp).2 ⟨h, hk⟩)
          obtain ⟨hseg, hcells⟩ := configured_absent hv hsize fp hk hold
          obtain ⟨hseg', hcells'⟩ := configured_absent hv hsize fp hk hrom
          exact ⟨hseg'.trans hseg.symm, fun x hx => (hcells' x hx).trans (hcells x hx).symm⟩
  exact memory_ext (wf_configured hv hsize fp hwf) hwf (fun k => (hkeeps k).seg) (fun x => (hkeeps _).cells x rfl) rfl rfl

end

/-! ### The size and its RAMSET -/

/-- ROUND gives the largest of RAM_SIZES that is not above the request, and 16 below 16 (R401). -/
theorem roundRam_spec (size : Int) :
    (size < 16 → roundRam size = 16) ∧ (16 ≤ size → (roundRam size : Int) ≤ size) ∧
      ∀ r ∈ Config.ramSizes, (r : Int) ≤ size → r ≤ roundRam size := by
  simp only [Config.ramSizes, List.forall_mem_cons, List.not_mem_nil, false_implies, implies_true, and_true]
  unfold roundRam
  split_ifs <;> omega

/-- The RAMSET of a memory map given as data is the one its map of that size lists (R402). -/
theorem ramSet_of_map {p : Params} {t : MemoryMap} {x : SizeMap} {size : Nat} (hmap : p.memoryMap = some t)
    (hof : t.ofSize size = some x) : ramSet p size = x.ramSet := by
  simp only [ramSet, hmap, hof, Option.map_some, Option.getD_some]

theorem needsAlloc_iff (p : Params) (size : Nat) (m : Memory) :
    needsAlloc p size m = true ↔ ∃ k ∈ ramSet p size, m.isRam k = false := by
  simp only [needsAlloc, List.any_eq_true, Bool.not_eq_true']

/-! ### The call -/

/-- The state after a configureRAM that succeeds (R400). -/
def configuredState (size : Int) (fp : Nat) (s : State) : State :=
  { s with chip.mem := configuredMem s.chip.cfg (roundRam size) fp s.chip.mem, host.result := .success }

/-- The call succeeds, or draws P_ALLOC_OK first where it needs a new segment, and fails where that is false (R404). -/
theorem exec_configureRAM (size : Int) (fp : Nat) (s : State) :
    exec (.hostConfigureRAM size fp) s = .next (
      if needsAlloc s.chip.cfg (roundRam size) s.chip.mem then
        if s.allocOk then configuredState size fp s.drewAlloc else s.drewAlloc.raise .configurationError
      else configuredState size fp s) := by
  simp only [exec, execHostConfigureRAM]
  split_ifs <;> rfl

@[simp] theorem drewAlloc_cfg (s : State) : s.drewAlloc.chip.cfg = s.chip.cfg := (evolves_drewAlloc s).cfg

@[simp] theorem drewAlloc_mem (s : State) : s.drewAlloc.chip.mem = s.chip.mem := by
  unfold State.drewAlloc
  split <;> rfl

theorem allocOk_of_cons {s : State} {ok : Bool} {rest : List Bool} (h : s.host.allocDraws = ok :: rest) :
    s.allocOk = ok := by simp only [State.allocOk, h]

theorem allocOk_of_nil {s : State} (h : s.host.allocDraws = []) : s.allocOk = Config.allocOk s.chip.draws := by
  simp only [State.allocOk, h]

theorem drewAlloc_of_cons {s : State} {ok : Bool} {rest : List Bool} (h : s.host.allocDraws = ok :: rest) :
    s.drewAlloc = { s with host.allocDraws := rest } := by simp only [State.drewAlloc, h]

theorem drewAlloc_of_nil {s : State} (h : s.host.allocDraws = []) :
    s.drewAlloc = { s with chip.draws := s.chip.draws + 1 } := by
  simp only [State.drewAlloc, h]
  rfl

/-- Settles O53: the supplied value is the one drawn, and it is all that the failing call takes. -/
theorem configureRamFailureChangesNothing : Obligations.ConfigureRamFailureChangesNothing := by
  intro s size fp rest hdraws hneeds
  rw [exec_configureRAM, if_pos ((needsAlloc_iff _ _ _).2 hneeds), allocOk_of_cons hdraws, drewAlloc_of_cons hdraws]
  rfl

/-- A configureRAM that succeeded has configured the state it was called in, but for the draw. -/
theorem exec_configureRAM_success {size : Int} {fp : Nat} {s t : State}
    (h : exec (.hostConfigureRAM size fp) s = .next t) (hsuccess : t.host.result = .success) :
    ∃ u, u.chip.cfg = s.chip.cfg ∧ u.chip.mem = s.chip.mem ∧ t = configuredState size fp u := by
  rw [exec_configureRAM] at h
  split_ifs at h <;> cases h
  · exact ⟨_, drewAlloc_cfg s, drewAlloc_mem s, rfl⟩
  · cases hsuccess
  · exact ⟨s, rfl, rfl, rfl⟩

/-- Settles O54: after a success RAMSET is all RAM, so the same call draws nothing and configures what is configured. -/
theorem configureRamIsIdempotent : Obligations.ConfigureRamIsIdempotent := by
  intro s t size fp hs h hsuccess
  obtain ⟨hv, hok, -⟩ := (good_iff s).1 hs
  obtain ⟨hwf, -⟩ := (chipOk_iff _).1 hok
  obtain ⟨u, hcfg, hmem, rfl⟩ := exec_configureRAM_success h hsuccess
  rw [← hcfg] at hv
  rw [← hmem] at hwf
  have hkept : ¬ needsAlloc u.chip.cfg (roundRam size)
      (configuredMem u.chip.cfg (roundRam size) fp u.chip.mem) = true := by
    rw [needsAlloc_iff]
    rintro ⟨k, hk, hram⟩
    rw [(configured_isRam hv (roundRam_mem size) fp).2 hk] at hram
    cases hram
  have hidem := configuredMem_idem hv (roundRam_mem size) fp hwf
  calc exec (.hostConfigureRAM size fp) (configuredState size fp u)
    _ = .next (configuredState size fp (configuredState size fp u)) := (exec_configureRAM _ _ _).trans (congrArg _ (if_neg hkept))
    _ = .next (configuredState size fp u) := by simp only [configuredState, hidem]

/-- Settles O52: the call by what it draws, and the storage by what a slot was and whether it is in RAMSET. -/
theorem configureRamCompletes : Obligations.ConfigureRamCompletes := by
  intro s size fp hs
  obtain ⟨hv, -, -⟩ := (good_iff s).1 hs
  have hsize := roundRam_mem size
  obtain ⟨hsmall, hbelow, hlargest⟩ := roundRam_spec size
  refine ⟨roundRam size, configuredMem s.chip.cfg (roundRam size) fp s.chip.mem, hsize, hsmall, hbelow, hlargest, ?_, rfl, rfl,
    fun hmap k => ?_, fun t x hmap hof => ramSet_of_map hmap hof, fun k => configured_isRam hv hsize fp,
    fun k => configured_isRom hv hsize fp, fun k off hoff hkept => ?_, fun k off hoff hold hnew => ?_⟩
  · intro done
    rw [exec_configureRAM]
    by_cases hneeds : ∃ k ∈ ramSet s.chip.cfg (roundRam size), s.chip.mem.isRam k = false
    · rw [if_pos ((needsAlloc_iff _ _ _).2 hneeds), if_pos hneeds]
      cases hdraws : s.host.allocDraws with
      | nil =>
        rw [allocOk_of_nil hdraws, drewAlloc_of_nil hdraws]
        rfl
      | cons ok rest =>
        rw [allocOk_of_cons hdraws, drewAlloc_of_cons hdraws]
        rfl
    · rw [if_neg (mt (needsAlloc_iff _ _ _).1 hneeds), if_neg hneeds]
      rfl
  · exact mem_defaultRamSet hmap hsize k
  · obtain hrom | ⟨hold, hnew⟩ := hkept
    · obtain ⟨hold, hout⟩ := (configured_isRom hv hsize fp).1 hrom
      exact (keepsSlot_configuredMem hv hsize fp hold hout).read_eq hoff
    · exact (keepsSlot_configuredMem_of_ram hv hsize fp hold ((configured_isRam hv hsize fp).1 hnew)).read_eq hoff
  · exact configured_read_of_new hv hsize fp hold ((configured_isRam hv hsize fp).1 hnew) hoff

/-! ## loadROM -/

/-! ### The bytes written -/

/-- The offset of the `j`-th byte of a loadROM that begins at `off`: it wraps within the segment (R410, R414). -/
def romPlace (off j : Nat) : Nat := (off + j) % Config.segSize

theorem romPlace_lt (off j : Nat) : romPlace off j < Config.segSize := Nat.mod_lt _ (by decide)

theorem romPlace_zero {off : Nat} (h : off < Config.segSize) : romPlace off 0 = off := Nat.mod_eq_of_lt h

/-- The places after the first are those of the rest. -/
theorem romPlace_succ (off j : Nat) : romPlace off (j + 1) = romPlace (romPlace off 1) j := by
  rw [romPlace, romPlace, romPlace, Nat.mod_add_mod, Nat.add_right_comm, Nat.add_assoc]

/-- Within one turn of the segment no place comes back. -/
theorem romPlace_inj {off j j' : Nat} (hlt : j < j') (hturn : j' < j + Config.segSize) :
    romPlace off j ≠ romPlace off j' := by
  simp only [romPlace, Config.segSize] at *
  omega

theorem writeRomBytes_cons (i off : Nat) (v : Byte) (bs : List Byte) (m : Memory) :
    writeRomBytes i off (v :: bs) m = writeRomBytes i (romPlace off 1) bs (m.write i off v) := rfl

/-- A byte at whose offset nothing is written is as it was. -/
theorem writeRomBytes_read_other (i off : Nat) (bs : List Byte) (m : Memory) (hoff : off < Config.segSize) {x : Nat}
    (hx : x < Config.segSize) (hother : ∀ j < bs.length, x ≠ romPlace off j) :
    (writeRomBytes i off bs m).read i x = m.read i x := by
  induction bs generalizing off m with
  | nil => rfl
  | cons v bs ih =>
    have hfirst : off ≠ x := fun h => hother 0 (Nat.succ_pos _) (h.symm.trans (romPlace_zero hoff).symm)
    have hrest : ∀ j < bs.length, x ≠ romPlace (romPlace off 1) j := fun j hj =>
      romPlace_succ off j ▸ hother (j + 1) (Nat.succ_lt_succ hj)
    rw [writeRomBytes_cons, ih _ _ (romPlace_lt off 1) hrest, read_write _ _ _ _ _ _ hoff hx, if_neg fun h => hfirst h.2]

/-- The last byte written to an offset is what it holds: no place comes back within a turn after it (R414). -/
theorem writeRomBytes_read_last (i off : Nat) (bs : List Byte) (m : Memory) (hoff : off < Config.segSize)
    (hi : (m.seg i).isSome = true) (j : Nat) (hj : j < bs.length) (hlast : bs.length ≤ j + Config.segSize) :
    (writeRomBytes i off bs m).read i (romPlace off j) = some bs[j] := by
  induction bs generalizing off m j with
  | nil => exact absurd hj (Nat.not_lt_zero j)
  | cons v bs ih =>
    rw [writeRomBytes_cons]
    cases j with
    | zero =>
      have hrest : ∀ j < bs.length, romPlace off 0 ≠ romPlace (romPlace off 1) j := fun j hj => by
        rw [← romPlace_succ]
        refine romPlace_inj (Nat.succ_pos j) ?_
        simp only [List.length_cons] at hlast
        omega
      obtain ⟨sg, hseg⟩ := Option.isSome_iff_exists.1 hi
      rw [writeRomBytes_read_other _ _ _ _ (romPlace_lt off 1) (romPlace_lt off 0) hrest, romPlace_zero hoff,
        read_write _ _ _ _ _ _ hoff hoff, if_pos ⟨rfl, rfl⟩, hseg]
      rfl
    | succ j =>
      simp only [List.length_cons] at hj hlast
      rw [romPlace_succ off j]
      exact ih _ (m.write i off v) (romPlace_lt off 1) hi j (by omega) (by omega)

/-! ### The slot -/

/-- Slots other than the bank's are left as they are (R410). -/
theorem keepsSlot_loadRom (bank offset length : Int) (bytes : Option (List Byte)) (c : Chip) {k : Nat}
    (hk : k ≠ romSeg c.cfg (bankIdx bank)) : KeepsSlot k c.mem (loadRom bank offset length bytes c).mem := by
  obtain ⟨hseg, hcells⟩ := loadRom_other bank offset length bytes c k hk
  exact ⟨hseg, hcells⟩

/-- The storage before the bytes are written: the slot as it is if it is ROM, else a new ROM segment (R411, R413). -/
def romReady (i draw : Nat) (m : Memory) : Memory := if m.isRom i then m else m.newRom i draw

/-- A loadROM with bytes makes its slot ROM and writes them there (R410). -/
theorem loadRom_some_mem (bank offset length : Int) (data : List Byte) (c : Chip) :
    (loadRom bank offset length (some data) c).mem =
      writeRomBytes (romSeg c.cfg (bankIdx bank)) (offset % (Config.segSize : Int)).toNat (romBytes length data)
        (romReady (romSeg c.cfg (bankIdx bank)) c.draws c.mem) := by
  simp only [loadRom, romReady]
  split <;> rfl

theorem romReady_present (i draw : Nat) (m : Memory) : ((romReady i draw m).seg i).isSome = true := by
  unfold romReady
  split
  next h =>
    obtain ⟨d, hd⟩ := (isRom_eq m i).1 h
    rw [hd]
    rfl
  next => rw [newRom_seg, if_pos rfl]; rfl

/-- A slot made ROM keeps its bytes if it was ROM, and else reads as the creation's draw (R411, R413). -/
theorem romReady_read (i draw : Nat) (m : Memory) {x : Nat} (hx : x < Config.segSize) :
    (romReady i draw m).read i x = if m.isRom i then m.read i x else some (Config.romInit draw i x) := by
  unfold romReady
  split_ifs
  · rfl
  · rw [Memory.read, newRom_seg, if_pos rfl, newRom_cells, if_pos (cellAddr_div i x hx)]
    rfl

/-! ### The call -/

theorem exec_loadROM (bank offset length : Int) (bytes : Option (List Byte)) (s : State) :
    exec (.hostLoadROM bank offset length bytes) s = .next { s with
      chip.mem := (loadRom bank offset length bytes s.chip).mem
      chip.draws := (loadRom bank offset length bytes s.chip).draws
      host.result := .nothing } := by
  calc exec (.hostLoadROM bank offset length bytes) s
      = .next ((s.onChip (loadRom bank offset length bytes)).returns .nothing) := rfl
    _ = _ := by rw [State.onChip, loadRom_eq]; rfl

/-- What loadROM leaves outside its slot: the RAM configuration, and every other slot's segment and bytes (R410). -/
theorem loadRom_rest (bank offset length : Int) (bytes : Option (List Byte)) (c : Chip) :
    let m := (loadRom bank offset length bytes c).mem
    m.ramSizeKiB = c.mem.ramSizeKiB ∧ m.fillPattern = c.mem.fillPattern ∧
      ∀ k, k ≠ romSeg c.cfg (bankIdx bank) → m.seg k = c.mem.seg k ∧ ∀ off, off < 16384 → m.read k off = c.mem.read k off := by
  obtain ⟨hsize, hfill⟩ := loadRom_config bank offset length bytes c
  refine ⟨hsize, hfill, fun k hk => ?_⟩
  have hkeeps := keepsSlot_loadRom bank offset length bytes c hk
  exact ⟨hkeeps.seg, fun off hoff => hkeeps.read_eq hoff⟩

/-- Settles O55: the slot by what stood in it, its bytes by whether the call writes them. -/
theorem loadRomCompletes : Obligations.LoadRomCompletes := by
  intro s bank offset length _ b i place rest
  have hslot : i = romSeg s.chip.cfg (bankIdx bank) := rfl
  clear_value i
  subst hslot
  refine ⟨⟨_, exec_loadROM bank offset length none s, (loadRom_slot bank offset length none s.chip).1 rfl,
    loadRom_rest bank offset length none s.chip⟩, fun bytes => ?_⟩
  have hoff := romOffset_lt offset
  have hlen : (romBytes length bytes).length = min length.toNat bytes.length := List.length_take
  refine ⟨_, _, exec_loadROM bank offset length (some bytes) s,
    (loadRom_slot bank offset length (some bytes) s.chip).2 (Option.some_ne_none _), fun j hj hwritten hlast => ?_,
    fun x hx hother => ?_, loadRom_rest bank offset length (some bytes) s.chip⟩
  · rw [loadRom_some_mem]
    refine (writeRomBytes_read_last _ _ _ _ hoff (romReady_present _ _ _) j (by omega) ?_).trans ?_
    · rw [hlen]
      exact hlast
    · simp only [romBytes, List.getElem_take]
  · rw [loadRom_some_mem, writeRomBytes_read_other _ _ _ _ hoff hx (by rw [hlen]; exact hother)]
    exact romReady_read _ _ _ hx

/-! ## The layout of RAM and ROM segments -/

/-! ### A storage that is laid out -/

/-- A storage whose RAM stands in the RAMSET of its size and whose ROM stands in the slots of the ROM banks. -/
structure MemLaid (p : Params) (m : Memory) : Prop where
  ram : ramLaid p m = true
  rom : romLaid p m = true

/-- The layout of RAM depends on where RAM stands and on the RAM configuration alone. -/
theorem ramLaid_congr {p : Params} {m m' : Memory} (hram : ∀ k, m'.isRam k = m.isRam k)
    (hsize : m'.ramSizeKiB = m.ramSizeKiB) (hfill : m'.fillPattern = m.fillPattern) : ramLaid p m' = ramLaid p m := by
  simp only [ramLaid, hram, hsize, hfill]

/-- The converse of `mem_romSlots_of_isRom`. -/
theorem romLaid_of_isRom {p : Params} {m : Memory} (hwf : m.wf = true)
    (h : ∀ k, m.isRom k = true → k ∈ romSlots p) : romLaid p m = true := by
  obtain ⟨hsegs, -, -, -⟩ := (wf_iff m).1 hwf
  refine (all_iff hsegs _).2 fun k sg hseg => ?_
  cases sg with
  | ram s f => rfl
  | rom d => simpa [Segment.isRam] using h k ((isRom_eq m k).2 ⟨d, hseg⟩)

/-- A storage with RAM where a laid-out one has it, under the same configuration, and ROM nowhere else, is laid out. -/
theorem MemLaid.of_kinds {p : Params} {m m' : Memory} (h : MemLaid p m) (hwf : m'.wf = true)
    (hram : ∀ k, m'.isRam k = m.isRam k) (hrom : ∀ k, m'.isRom k = true → m.isRom k = true)
    (hsize : m'.ramSizeKiB = m.ramSizeKiB) (hfill : m'.fillPattern = m.fillPattern) : MemLaid p m' where
  ram := (ramLaid_congr hram hsize hfill).trans h.ram
  rom := romLaid_of_isRom hwf fun k hk => mem_romSlots_of_isRom h.rom (hrom k hk)

/-- Bus accesses and chip operations move no segment. -/
theorem MemLaid.of_memEvolves {p : Params} {m m' : Memory} (h : MemLaid p m) (he : MemEvolves m m') : MemLaid p m' where
  ram := (ramLaid_congr (isRam_of_segs he.segs) he.size he.fill).trans h.ram
  rom := by
    rw [romLaid, he.segs]
    exact h.rom

/-- In a laid-out storage no RAM stands in the slot of a ROM bank (R402). -/
theorem isRam_eq_false_of_mem_romSlots {p : Params} (hapart : romApart p = true) {m : Memory} (hwf : m.wf = true)
    (hlaid : ramLaid p m = true) {k : Nat} (hk : k ∈ romSlots p) : m.isRam k = false := by
  obtain ⟨-, -, hlt, -⟩ := (wf_iff m).1 hwf
  refine Bool.eq_false_iff.2 fun hram => ?_
  obtain ⟨s, f, hseg⟩ := (isRam_eq m k).1 hram
  have hslot : k < Config.segSlots := hlt k _ hseg
  cases hsize : m.ramSizeKiB with
  | none =>
    simp only [ramLaid, hsize, List.all_eq_true, List.mem_range, Bool.not_eq_true'] at hlaid
    rw [hlaid k hslot] at hram
    cases hram
  | some size =>
    obtain ⟨hmem, hiff⟩ := isRam_iff_of_ramLaid hlaid hsize
    exact not_mem_ramSet_of_romApart hapart hmem hk ((hiff k hslot).1 hram)

/-! ### The storage under each host call -/

/-- configureRAM lays out RAM (R400, R402). -/
theorem ramLaid_configuredMem {p : Params} (hv : p.valid = true) {size : Nat} (hsize : size ∈ Config.ramSizes) (fp : Nat)
    (m : Memory) : ramLaid p (configuredMem p size fp m) = true := by
  have hconf : (configuredMem p size fp m).ramSizeKiB = some size := rfl
  have hfill : (configuredMem p size fp m).fillPattern = some fp := rfl
  simp only [ramLaid, hconf, hfill, hsize, decide_true, Option.isSome_some, Bool.and_self, Bool.true_and, List.all_eq_true,
    beq_iff_eq]
  intro k _
  rw [Bool.eq_iff_iff, configured_isRam hv hsize fp, List.contains_iff_mem]

theorem MemLaid.configuredMem {p : Params} (hv : p.valid = true) {size : Nat} (hsize : size ∈ Config.ramSizes) (fp : Nat)
    {m : Memory} (hwf : m.wf = true) (h : MemLaid p m) : MemLaid p (configuredMem p size fp m) where
  ram := ramLaid_configuredMem hv hsize fp m
  rom := romLaid_of_isRom (wf_configured hv hsize fp hwf) fun _ hk =>
    mem_romSlots_of_isRom h.rom ((configured_isRom hv hsize fp).1 hk).1

theorem romSeg_mem_romSlots (p : Params) (bank : Int) : romSeg p (bankIdx bank) ∈ romSlots p :=
  List.mem_map_of_mem (List.mem_range.2 (bankIdx_lt bank))

theorem KeepsSlot.isRam_eq {k : Nat} {m m' : Memory} (h : KeepsSlot k m m') : m'.isRam k = m.isRam k := by
  rw [Memory.isRam, h.seg, Memory.isRam]

/-- The slot loadROM names holds no RAM afterwards: it is ABSENT or ROM. -/
theorem loadRom_slot_isRam (bank offset length : Int) (bytes : Option (List Byte)) (c : Chip) :
    (loadRom bank offset length bytes c).mem.isRam (romSeg c.cfg (bankIdx bank)) = false := by
  obtain ⟨habsent, hrom⟩ := loadRom_slot bank offset length bytes c
  cases bytes with
  | none => rw [Memory.isRam, habsent rfl]; rfl
  | some data => exact isRam_of_isRom (hrom (Option.some_ne_none data))

/-- loadROM changes the slot of a ROM bank, where no RAM stands (R410). -/
theorem MemLaid.loadRom {c : Chip} (hapart : romApart c.cfg = true) (hv : c.cfg.valid = true) (hwf : c.mem.wf = true)
    (h : MemLaid c.cfg c.mem) (bank offset length : Int) (bytes : Option (List Byte)) :
    MemLaid c.cfg (loadRom bank offset length bytes c).mem := by
  obtain ⟨hsize, hfill⟩ := loadRom_config bank offset length bytes c
  have hslot := romSeg_mem_romSlots c.cfg bank
  have hkeeps := fun k => keepsSlot_loadRom bank offset length bytes c (k := k)
  refine ⟨(ramLaid_congr (fun k => ?_) hsize hfill).trans h.ram,
    romLaid_of_isRom (wf_loadRom bank offset length bytes c hv hwf) fun k hk => ?_⟩ <;>
    by_cases hki : k = romSeg c.cfg (bankIdx bank)
  · rw [hki, loadRom_slot_isRam, isRam_eq_false_of_mem_romSlots hapart hwf h.ram hslot]
  · exact (hkeeps k hki).isRam_eq
  · exact hki ▸ hslot
  · exact mem_romSlots_of_isRom h.rom ((hkeeps k hki).isRom_eq ▸ hk)

theorem refill_isRom (m : Memory) (k : Nat) : m.refill.isRom k = m.isRom k := by
  simp only [Memory.isRom, refill_seg]
  split
  · rcases m.seg k with - | (d | ⟨s, f⟩) <;> rfl
  · rfl

theorem MemLaid.refill {p : Params} {m : Memory} (hwf : m.wf = true) (h : MemLaid p m) : MemLaid p m.refill := by
  obtain ⟨hsize, hfill⟩ := refill_config m
  exact h.of_kinds (wf_refill hwf) (refill_isRam m) (fun k hk => refill_isRom m k ▸ hk) hsize hfill

theorem isRam_of_ramOnly {m : Memory} (h : ramOnly m = true) {k : Nat} {sg : Segment} (hseg : m.seg k = some sg) :
    sg.isRam = true := List.all_eq_true.1 h (k, sg) (mem_of_assocGet hseg)

/-- After loadState RAM stands where the snapshot has it (R1211). -/
theorem withRam_isRam {m ram : Memory} (hwf : ram.wf = true) (k : Nat) : (m.withRam ram).isRam k = ram.isRam k := by
  obtain ⟨hsegs, -, -, -⟩ := (wf_iff ram).1 hwf
  simp only [Memory.isRam, withRam_seg m ram hsegs]
  cases ram.seg k with
  | some sg => rfl
  | none =>
    cases hrom : m.isRom k with
    | false => rfl
    | true =>
      obtain ⟨d, hd⟩ := (isRom_eq m k).1 hrom
      simp only [hd, if_true, Option.none_or]
      rfl

/-- After loadState ROM stands only where the chip had it: a snapshot brings none (R1210, R1211). -/
theorem isRom_of_withRam {m ram : Memory} (hwf : ram.wf = true) (honly : ramOnly ram = true) {k : Nat}
    (hk : (m.withRam ram).isRom k = true) : m.isRom k = true := by
  obtain ⟨hsegs, -, -, -⟩ := (wf_iff ram).1 hwf
  obtain ⟨d, hd⟩ := (isRom_eq _ k).1 hk
  rw [withRam_seg m ram hsegs] at hd
  cases hseg : ram.seg k with
  | some sg =>
    have hram := isRam_of_ramOnly honly hseg
    rw [hseg, Option.some_or, Option.some.injEq] at hd
    subst hd
    cases hram
  | none =>
    by_contra hrom
    rw [hseg, Option.none_or, if_neg hrom] at hd
    cases hd

theorem MemLaid.withRam {p : Params} {m ram : Memory} (h : MemLaid p m) (hm : m.wf = true) (hwf : ram.wf = true)
    (honly : ramOnly ram = true) (hlaid : ramLaid p ram = true) : MemLaid p (m.withRam ram) where
  ram := (ramLaid_congr (withRam_isRam hwf) rfl rfl).trans hlaid
  rom := romLaid_of_isRom (wf_withRam hm hwf) fun _ hk => mem_romSlots_of_isRom h.rom (isRom_of_withRam hwf honly hk)

/-- The memory part of a snapshot has RAM where the chip has it (R1210). -/
theorem ramPart_isRam (m : Memory) (k : Nat) : m.ramPart.isRam k = m.isRam k := by
  rw [Memory.isRam, ramPart_seg]
  cases hram : m.isRam k with
  | false => rfl
  | true => rw [if_pos rfl]; exact hram

/-! ### Every operation -/

theorem evolves_execHostRun {ticks : Int} {s t : State} (h : execHostRun ticks s = .next t) :
    Evolves s.chip t.chip := by
  unfold execHostRun at h
  split_ifs at h <;> cases h
  · exact .refl _
  · exact evolves_runBudget _ _

/-- Every operation on a good, laid-out state leaves the chip's storage laid out. -/
theorem exec_memLaid (i : Instr) {s t : State} (hs : Good s = true) (hlaid : LaidOut s = true)
    (h : exec i s = .next t) : MemLaid s.chip.cfg t.chip.mem := by
  obtain ⟨hv, hok, hsnapsOk⟩ := (good_iff s).1 hs
  obtain ⟨hwf, -⟩ := (chipOk_iff _).1 hok
  obtain ⟨hapart, hram, hrom, hsnapsLaid⟩ := (laidOut_iff s).1 hlaid
  have hmem : MemLaid s.chip.cfg s.chip.mem := ⟨hram, hrom⟩
  have hevolves : ∀ {c'}, Evolves s.chip c' → MemLaid s.chip.cfg c'.mem := fun he => hmem.of_memEvolves he.mem
  by_cases hf : (encode i).fmt = .host
  · cases i with
    | hostConfigureRAM size fp =>
      obtain ⟨c, hc, ht | ht⟩ := execHostConfigureRAM_chip_cases h <;> rw [ht]
      · exact hevolves hc
      · rw [← hc.cfg]
        exact (hc.cfg ▸ hevolves hc).configuredMem (hc.cfg ▸ hv) (roundRam_mem size) fp (hc.mem.wf hwf)
    | hostLoadROM => cases h; exact hmem.loadRom hapart hv hwf _ _ _ _
    | hostRun => exact hevolves (evolves_execHostRun h)
    | hostReset cold =>
      cases h
      obtain hkept | hfilled := resetChip_mem_cases cold s.resetDraw s.drewReset.chip
      · exact (hkept.trans (drewReset_mem s)).symm ▸ hmem
      · exact (hfilled.trans (congrArg _ (drewReset_mem s))).symm ▸ hmem.refill hwf
    | hostLoadState n =>
      simp only [exec, execHostLoadState] at h
      split at h <;> cases h
      next snap hget =>
        have hheld : snap ∈ s.host.snapshots := List.mem_of_getElem? hget
        have hsnapOk := hsnapsOk snap hheld
        simp only [snapshotOk, Bool.and_eq_true] at hsnapOk
        obtain ⟨⟨hsnapWf, honly⟩, -⟩ := hsnapOk
        exact hmem.withRam hwf hsnapWf honly (hsnapsLaid snap hheld).1
    | hostWriteRegister => cases h; exact hevolves (evolves_writeRule _ _ _ _)
    | hostReadRegister => cases h; exact hevolves (evolves_drewOnRead _ _)
    | hostResolve | hostGetSegmentKind | hostSaveState | hostRegisterCallback
    | hostReservedB | hostReservedC | hostReservedD | hostReservedE | hostReservedF => cases h; exact hmem
    | _ => cases hf
  · obtain ⟨f, hexec, he⟩ := exec_evolves i s hf
    rw [hexec] at h
    cases h
    exact hevolves he

/-- Every operation on a good, laid-out state leaves snapshots of laid-out RAM. -/
theorem exec_snapshotsLaid (i : Instr) {s t : State} (hs : Good s = true) (hlaid : LaidOut s = true)
    (h : exec i s = .next t) :
    ∀ k ∈ t.host.snapshots, ramLaid s.chip.cfg k.ram = true ∧ ramOnly k.ram = true := by
  obtain ⟨-, hok, -⟩ := (good_iff s).1 hs
  obtain ⟨hwf, -⟩ := (chipOk_iff _).1 hok
  obtain ⟨-, hram, -, hsnaps⟩ := (laidOut_iff s).1 hlaid
  obtain heq | heq := exec_snapshots_cases i h
  · rw [heq]
    exact hsnaps
  · intro k hk
    rw [heq, List.mem_append, List.mem_singleton] at hk
    obtain hk | rfl := hk
    · exact hsnaps k hk
    · exact ⟨(ramLaid_congr (ramPart_isRam _) rfl rfl).trans hram, ramOnly_ramPart hwf⟩

/-- Every operation keeps the layout of good states. -/
theorem exec_laidOut (i : Instr) {s t : State} (hs : Good s = true) (hlaid : LaidOut s = true)
    (h : exec i s = .next t) : LaidOut t = true := by
  have hmem : MemLaid s.chip.cfg t.chip.mem := exec_memLaid i hs hlaid h
  rw [laidOut_iff, (exec_keepsRecord i h).cfg]
  exact ⟨((laidOut_iff s).1 hlaid).1, hmem.ram, hmem.rom, exec_snapshotsLaid i hs hlaid h⟩

/-- Settles O8: a step is one operation or nothing, and neither goodness nor the layout depends on what is queued. -/
theorem stepKeepsTheSegmentLayout : Obligations.StepKeepsTheSegmentLayout := by
  intro s t hs hlaid h
  obtain ⟨-, rfl⟩ | ⟨-, rest, i, -, hexec⟩ := step_cases h
  · exact hlaid
  · exact exec_laidOut (s := s.withQueue rest) i hs hlaid hexec

/-! ## The calls that look something up, registerCallback and the host-direct register access -/

/-- getSegmentKind answers what stands in the slot modulo 256 (R430). -/
theorem segmentKind_eq (sl : Int) (m : Memory) :
    segmentKind sl m = if m.isRam (sl % 256).toNat then .ram else if m.isRom (sl % 256).toNat then .rom else .none := by
  unfold segmentKind
  split
  next hseg => simp [Memory.isRam, Memory.isRom, hseg]
  next d hseg => simp [Memory.isRam, Memory.isRom, hseg, Segment.isRam]
  next size fp hseg => simp [Memory.isRam, hseg, Segment.isRam]

theorem exec_resolve (k : AccessKind) (a : Addr) (s : State) :
    exec (.hostResolve k a) s = .next { s with host.result := resolveResult k a s.chip } := rfl

theorem exec_getSegmentKind (sl : Int) (s : State) :
    exec (.hostGetSegmentKind sl) s = .next { s with host.result := .kind (segmentKind sl s.chip.mem) } := rfl

theorem exec_readRegister (o : BitVec 5) (s : State) :
    exec (.hostReadRegister o) s =
      .next { s with chip := drewOnRead o.toFin s.chip, host.result := .byte (readValue o.toFin s.chip) } := rfl

/-- Only a read of the keyboard takes a free value (R558, log 7). -/
theorem drewOnRead_of_ne {o : BitVec 5} (h : o ≠ 8) (c : Chip) : drewOnRead o.toFin c = c :=
  if_neg fun heq => h (congrArg BitVec.ofFin heq)

/-- Settles O56: each clause is the call's meaning at its operands. -/
theorem hostCallResults : Obligations.HostCallResults := by
  intro s
  refine ⟨fun k a hopen => ?_, fun k a i off hloc => ?_, fun sl => ?_, fun cb ud => rfl, fun o v => rfl, fun o ho => ?_, rfl⟩
  · rw [exec_resolve, resolveResult, hopen]
  · rw [exec_resolve, resolveResult, hloc]
  · rw [exec_getSegmentKind, segmentKind_eq]
  · rw [exec_readRegister, drewOnRead_of_ne ho]

end Sys2Proof.Proofs

/-! # Proofs: the register file, the bank latches and the CPU's accesses of memory -/

namespace Sys2Proof.Proofs

open Sys2Proof.Machine Sys2Proof.Laws

/-! ## Register reads (R506) -/

/-- The byte of R504: a read takes the AND with the value in flight, and where none is, the current value alone. -/
theorem readValue_eq (o : Fin 32) (c : Chip) :
    readValue o c = (cur o c &&& (c.pend o).getD 0xFF) ||| c.alwaysSet o := by
  have hall : cur o c &&& 0xFF = cur o c := BitVec.and_allOnes
  unfold readValue
  split
  next v hp => rw [hp, Option.getD_some]
  next hp => rw [hp, Option.getD_none, hall]

theorem readValue_of_not_pending {o : Fin 32} {c : Chip} (h : c.pend o = none) :
    readValue o c = cur o c ||| c.alwaysSet o := by
  simp only [readValue, h]

/-- A register read of the CPU: the byte of R506 is handed over, and the keyboard's read takes a free value. -/
theorem exec_readRow_eq (o : BitVec 5) (s : State) :
    exec (readRow o) s =
      .next ((s.afterRead (regAddr o.toFin) (readValue o.toFin s.chip)).onChip (drewOnRead o.toFin)) :=
  exec_readRow o s

/-- Every read but that of the keyboard changes the bus value and the trace alone. -/
theorem exec_readRow_of_ne {o : BitVec 5} (h : o ≠ 8) (s : State) :
    exec (readRow o) s = .next (s.afterRead (regAddr o.toFin) (readValue o.toFin s.chip)) := by
  rw [exec_readRow_eq, State.onChip, drewOnRead_of_ne h]

/-- A read of an offset without a value in flight. -/
theorem exec_readRow_of_not_pending {o : BitVec 5} (h : o ≠ 8) {s : State} (hp : s.chip.pend o.toFin = none) :
    exec (readRow o) s =
      .next (s.afterRead (regAddr o.toFin) (cur o.toFin s.chip ||| s.chip.alwaysSet o.toFin)) := by
  rw [exec_readRow_of_ne h, readValue_of_not_pending hp]

/-- A read of a delayed offset, whose current value races with the value in flight (R504). -/
theorem exec_readRow_of_race {o : BitVec 5} (h : o ≠ 8) (s : State) :
    exec (readRow o) s = .next (s.afterRead (regAddr o.toFin)
      ((cur o.toFin s.chip &&& (s.chip.pend o.toFin).getD 0xFF) ||| s.chip.alwaysSet o.toFin)) := by
  rw [exec_readRow_of_ne h, readValue_eq]

/-! ### The stored registers -/

/-- The offsets whose current value is the stored byte, but for 0x1A and 0x1B, whose writes are delayed (R503, R506). -/
def storedOffsets : List (BitVec 5) :=
  [0x06, 0x07, 0x0A, 0x0B, 0x0C, 0x0D, 0x0E, 0x0F, 0x10, 0x11, 0x12, 0x14, 0x15, 0x16, 0x17, 0x18, 0x19]

theorem cur_of_stored {o : BitVec 5} (h : o ∈ storedOffsets) (c : Chip) : cur o.toFin c = c.reg o.toFin := by
  fin_cases h <;> rfl

theorem pend_of_stored {o : BitVec 5} (h : o ∈ storedOffsets) (c : Chip) : c.pend o.toFin = none := by
  fin_cases h <;> rfl

theorem exec_readRow_of_stored {o : BitVec 5} (h : o ∈ storedOffsets) (s : State) :
    exec (readRow o) s =
      .next (s.afterRead (regAddr o.toFin) (s.chip.reg o.toFin ||| s.chip.alwaysSet o.toFin)) := by
  have hne : o ≠ 8 := fun h8 => absurd (h8 ▸ h) (by decide)
  rw [exec_readRow_of_not_pending hne (pend_of_stored h s.chip), cur_of_stored h]

/-- Settles O20: every row listed is the read of a stored offset. -/
theorem storedRegisterReads : Obligations.StoredRegisterReads := by
  intro s p hp
  obtain ⟨hrow, hstored⟩ : p.1 = readRow (.ofFin p.2) ∧ BitVec.ofFin p.2 ∈ storedOffsets := by
    fin_cases hp <;> decide
  rw [hrow]
  exact exec_readRow_of_stored hstored s

/-! ### The live registers -/

/-- Bit 7 of the interrupt status is set where an enabled source is active (R559, R1112). -/
theorem byteBit_irqActive (c : Chip) :
    byteBit c.irqActive 7 = (if c.irq.stat &&& c.rf.regs[0x0A] &&& 0x5E = 0 then 0x00 else 0x80 : Nat) := by
  have hactive : c.irqActive = (c.irq.stat &&& c.rf.regs[0x0A] &&& 0x5E != 0) := rfl
  rw [hactive]
  by_cases h : c.irq.stat &&& c.rf.regs[0x0A] &&& 0x5E = 0
  · rw [if_pos h, h]
    rfl
  · rw [if_neg h, bne_iff_ne.2 h]
    rfl

theorem byteBit_zero (b : Bool) : byteBit b 0 = (if b then 0x01 else 0x00 : Nat) := by cases b <;> rfl

/-- The high bit of the line, as register 0x1C shows it (R578). -/
theorem lineHigh_eq (l : BitVec 9) : (field l 8 1).setWidth 8 = (l >>> 8).setWidth 8 := by
  have hl := l.isLt
  apply BitVec.eq_of_toNat_eq
  simp only [field, BitVec.toNat_setWidth, BitVec.extractLsb'_toNat, BitVec.toNat_ushiftRight,
    Nat.shiftRight_eq_div_pow]
  omega

/-- The low byte of the line, as register 0x1D shows it (R579). -/
theorem lineLow_eq (l : BitVec 9) : field l 0 8 = l.setWidth 8 :=
  (BitVec.setWidth_eq_extractLsb' (by decide)).symm

/-- Settles O21: each clause is the current value of its offset, with no value in flight. -/
theorem liveRegisterReads : Obligations.LiveRegisterReads := by
  intro s c t z
  have hread : ∀ {o : BitVec 5}, o ≠ 8 → c.pend o.toFin = none → exec (readRow o) s =
      .next (s.afterRead (regAddr o.toFin) (cur o.toFin c ||| c.alwaysSet o.toFin)) :=
    fun h hp => exec_readRow_of_not_pending h hp
  refine ⟨hread (o := 0x00) (by decide) rfl, hread (o := 0x01) (by decide) rfl, hread (o := 0x02) (by decide) rfl,
    hread (o := 0x03) (by decide) rfl, hread (o := 0x04) (by decide) rfl, hread (o := 0x05) (by decide) rfl,
    exec_readRow_eq 0x08 s, ?_, ?_, ?_, ?_⟩
  · rw [← byteBit_irqActive]
    exact hread (o := 0x09) (by decide) rfl
  · rw [← byteBit_zero]
    exact hread (o := 0x13) (by decide) rfl
  · rw [← lineHigh_eq]
    exact hread (o := 0x1C) (by decide) rfl
  · rw [← lineLow_eq]
    exact hread (o := 0x1D) (by decide) rfl

/-! ### The delayed registers -/

/-- The flash counter above the sub-address, as register 0x1F shows them (R581). -/
theorem vsubByte_eq (flash : BitVec 4) (sub : BitVec 3) :
    (flash ++ sub).setWidth 8 = 0#1 ++ flash ++ sub := by
  have hlt : (flash ++ sub).toNat < 2 ^ 8 := (flash ++ sub).isLt.trans (by decide)
  apply BitVec.eq_of_toNat_eq
  rw [BitVec.toNat_setWidth, Nat.mod_eq_of_lt hlt]
  simp only [BitVec.toNat_append, BitVec.toNat_ofNat, Nat.zero_mod, Nat.zero_shiftLeft, Nat.zero_or]

/-- Settles O22: each clause is the race of an offset's current value with its value in flight. -/
theorem readsRaceWithPendingWrites : Obligations.ReadsRaceWithPendingWrites := by
  intro s c z
  refine ⟨exec_readRow_of_race (o := 0x1A) (by decide) s, exec_readRow_of_race (o := 0x1B) (by decide) s,
    exec_readRow_of_race (o := 0x1E) (by decide) s, ?_⟩
  rw [← vsubByte_eq]
  exact exec_readRow_of_race (o := 0x1F) (by decide) s

/-! ## Register writes (R505) -/

/-- A register write of the CPU: the byte is driven to the register's address, and the offset's rule follows. -/
theorem exec_writeRow_eq (o : BitVec 5) (v : Byte) (s : State) :
    exec (writeRow o v) s =
      .next ((s.afterWrite (regAddr o.toFin) v).onChip (writeRule s.chip.seq.phase o.toFin v)) :=
  exec_writeRow o v s

/-- The write of an offset whose rule is known. -/
theorem exec_writeRow_of_rule {o : BitVec 5} {v : Byte} {s : State} {c : Chip}
    (h : writeRule s.chip.seq.phase o.toFin v (s.afterWrite (regAddr o.toFin) v).chip = c) :
    exec (writeRow o v) s = .next { s with chip := c } := by
  rw [exec_writeRow_eq, State.onChip, h]
  rfl

/-! ### The timers -/

/-- Settles O23: each clause is the write rule of its offset (R510-R515). -/
theorem timerWrites : Obligations.TimerWrites := by
  intro s v t
  exact ⟨exec_writeRow_eq 0x00 v s, exec_writeRow_eq 0x01 v s, exec_writeRow_eq 0x02 v s, exec_writeRow_eq 0x03 v s,
    exec_writeRow_eq 0x04 v s, exec_writeRow_eq 0x05 v s⟩

/-! ### The storing writes -/

/-- The offsets whose write stores the byte and does nothing else at once (R520-R523, R527, R529-R535). -/
def storingOffsets : List (BitVec 5) := [0x0A, 0x0B, 0x0C, 0x0D, 0x11, 0x13, 0x14, 0x15, 0x16, 0x17, 0x18, 0x19]

theorem writeRule_of_storing {o : BitVec 5} (h : o ∈ storingOffsets) (p : Phase) (v : Byte) (c : Chip) :
    writeRule p o.toFin v c = c.setReg o.toFin v := by
  fin_cases h <;> rfl

theorem exec_writeRow_of_storing {o : BitVec 5} (h : o ∈ storingOffsets) (v : Byte) (s : State) :
    exec (writeRow o v) s = .next ((s.afterWrite (regAddr o.toFin) v).stored o.toFin v) :=
  exec_writeRow_of_rule (writeRule_of_storing h _ v _)

/-- Settles O24: every row listed is the write of a storing offset. -/
theorem storingRegisterWrites : Obligations.StoringRegisterWrites := by
  intro s v p hp
  obtain ⟨hrow, hstoring⟩ : p.1 = writeRow (.ofFin p.2) v ∧ BitVec.ofFin p.2 ∈ storingOffsets := by
    fin_cases hp <;> exact ⟨rfl, List.elem_iff.1 rfl⟩
  rw [hrow]
  exact exec_writeRow_of_storing hstoring v s

/-! ### The keyboard latch, the interrupt status and the video line -/

/-- Settles O25: each clause is the write rule of its offset (R518, R519, R538, R539). -/
theorem latchStatusAndLineWrites : Obligations.LatchStatusAndLineWrites := by
  intro s v
  exact ⟨exec_writeRow_eq 0x08 v s, exec_writeRow_eq 0x09 v s, exec_writeRow_eq 0x1C v s, exec_writeRow_eq 0x1D v s⟩

/-! ### The frequencies -/

theorem freq1_setReg_low (c : Chip) (v : Byte) : (c.setReg 0x0E v).freq1 = field (c.reg 0x12) 0 2 ++ v := by
  rw [Chip.freq1, reg_setReg_same, reg_setReg_ne c v (by decide)]

theorem freq1_setReg_high (c : Chip) (v : Byte) : (c.setReg 0x12 v).freq1 = field v 0 2 ++ c.reg 0x0E := by
  rw [Chip.freq1, reg_setReg_same, reg_setReg_ne c v (by decide)]

theorem freq2_setReg_low (c : Chip) (v : Byte) : (c.setReg 0x0F v).freq2 = field (c.reg 0x10) 0 2 ++ v := by
  rw [Chip.freq2, reg_setReg_same, reg_setReg_ne c v (by decide)]

theorem freq2_setReg_high (c : Chip) (v : Byte) : (c.setReg 0x10 v).freq2 = field v 0 2 ++ c.reg 0x0F := by
  rw [Chip.freq2, reg_setReg_same, reg_setReg_ne c v (by decide)]

/-- What R1002 makes of a frequency of channel 1. -/
theorem reloadChannel1_of_freq {c : Chip} {f : BitVec 10} (h : c.freq1 = f) :
    reloadChannel1 c = { c with snd.ch1.reload := c.cfg.reload.getD f.toNat 0 } := by
  rw [reloadChannel1, h]
  rfl

/-- What R1002 makes of a frequency of channel 2. -/
theorem reloadChannel2_of_freq {c : Chip} {f : BitVec 10} (h : c.freq2 = f) :
    reloadChannel2 c = { c with snd.ch2.reload := c.cfg.reload.getD f.toNat 0 } := by
  rw [reloadChannel2, h]
  rfl

/-- Settles O26: the channel's frequency after the store, and the reload value of it. -/
theorem frequencyWrites : Obligations.FrequencyWrites := by
  intro s v r reload
  exact ⟨exec_writeRow_of_rule (o := 0x0E) (reloadChannel1_of_freq (freq1_setReg_low _ v)),
    exec_writeRow_of_rule (o := 0x12) (reloadChannel1_of_freq (freq1_setReg_high _ v)),
    exec_writeRow_of_rule (o := 0x0F) (reloadChannel2_of_freq (freq2_setReg_low _ v)),
    exec_writeRow_of_rule (o := 0x10) (reloadChannel2_of_freq (freq2_setReg_high _ v))⟩

/-! ### The control registers -/

/-- `scheduled` is the model's `schedule` (R710). -/
theorem onChip_schedule (s : State) (p : Phase) (b : Nat) (d : Delay) :
    s.onChip (·.schedule p b d) = s.scheduled p b d := by
  cases d <;> cases p <;> rfl

/-- `refuse` where a condition holds (R46, R1102). -/
theorem refuse_if (b : Bool) (c : Chip) : (if b then c.refuse else c) = { c with refused := c.refused || b } := by
  cases b with
  | false => simp only [Bool.false_eq_true, if_false, Bool.or_false]
  | true => simp only [if_true, Bool.or_true, Chip.refuse]

/-- The standard follows the bit, and the call to the sink stands in the trace where it changed (R517). -/
theorem setStandard_eq (n : Bool) (c : Chip) :
    setStandard n c = { c with
      seq.ntsc := n
      trace := if n = c.seq.ntsc then c.trace else .ntsc n :: c.trace } := by
  unfold setStandard
  split
  next h => subst h; rfl
  next h => rfl

theorem schedule_refused (c : Chip) (p : Phase) (b : Nat) (d : Delay) : (c.schedule p b d).refused = c.refused :=
  setEvMask_refused c _ _

theorem schedule_trace (c : Chip) (p : Phase) (b : Nat) (d : Delay) : (c.schedule p b d).trace = c.trace :=
  setEvMask_trace c _ _

/-- The write rule of the first control register (R516). -/
theorem writeControl1_eq (p : Phase) (v : Byte) (c : Chip) :
    writeControl1 p v c = { (c.setReg 0x06 v).schedule p 5 c.cfg.delayMode with
      refused := c.refused || v.getLsbD 7 } := by
  rw [writeControl1, refuse_if, schedule_refused]
  rfl

/-- The write rule of the second control register (R517). -/
theorem writeControl2_eq (p : Phase) (v : Byte) (c : Chip) :
    writeControl2 p v c = { (c.setReg 0x07 v).schedule p 5 c.cfg.delayMode with
      seq.ntsc := v.getLsbD 6
      trace := if v.getLsbD 6 = c.seq.ntsc then c.trace else .ntsc (v.getLsbD 6) :: c.trace
      refused := c.refused || v.getLsbD 5 } := by
  have hstd : ((c.setReg 0x07 v).schedule p evSelectRendererBit c.cfg.delayMode).seq.ntsc = c.seq.ntsc :=
    congrArg Sequencer.ntsc (schedule_seq _ _ _ _)
  rw [writeControl2, refuse_if, setStandard_eq, hstd, schedule_refused, schedule_trace]
  rfl

/-- Settles O27: each clause is the write rule of its offset, with the schedule said as `scheduled` says it. -/
theorem modeWrites : Obligations.ModeWrites := by
  intro s v d p
  refine ⟨?_, ?_⟩ <;> rw [← onChip_schedule]
  · exact exec_writeRow_of_rule (o := 0x06) (writeControl1_eq p v _)
  · exact exec_writeRow_of_rule (o := 0x07) (writeControl2_eq p v _)

/-! ### The delayed registers -/

/-- A scheduling changes a mask alone, so a change of the chip that leaves the masks may come before or after it. -/
theorem schedule_comm {f : Chip → Chip} (hf : ∀ c q m, (f c).setEvMask q m = f (c.setEvMask q m))
    (hmask : ∀ c q, (f c).evMask q = c.evMask q) (c : Chip) (p : Phase) (b : Nat) (d : Delay) :
    (f c).schedule p b d = f (c.schedule p b d) := by
  rw [Chip.schedule, hmask, hf, Chip.schedule]

/-- Settles O28: each clause is the write rule of its offset, scheduled before the value is put in flight. -/
theorem delayedRegisterWrites : Obligations.DelayedRegisterWrites := by
  intro s v p g
  refine ⟨?_, ?_, ?_, ?_⟩ <;> rw [← onChip_schedule]
  · exact exec_writeRow_of_rule (o := 0x1A) (schedule_comm (f := fun c => { c with rf.pend1A := some v })
      (by rintro c (_ | _) m <;> rfl) (by rintro c (_ | _) <;> rfl) _ p 1 g.delayCpos)
  · exact exec_writeRow_of_rule (o := 0x1B) (schedule_comm (f := fun c => { c with rf.pend1B := some v })
      (by rintro c (_ | _) m <;> rfl) (by rintro c (_ | _) <;> rfl) _ p 1 g.delayCpos)
  · exact exec_writeRow_of_rule (o := 0x1E) (schedule_comm (f := fun c => { c with rf.pend1E := some v })
      (by rintro c (_ | _) m <;> rfl) (by rintro c (_ | _) <;> rfl) _ p 0 g.delayHpos)
  · exact exec_writeRow_of_rule (o := 0x1F) (schedule_comm (f := fun c => { c with rf.pend1F := some v })
      (by rintro c (_ | _) m <;> rfl) (by rintro c (_ | _) <;> rfl) _ p 2 g.delayVsub)

/-! ### A delayed write and the dispatches (R711) -/

/-- The low register of the character-position reload, and the value in flight to it. -/
def cposLow (c : Chip) : Byte × Option Byte := (c.reg 0x1B, c.rf.pend1B)

/-- Storing another register leaves it. -/
theorem cposLow_setReg (c : Chip) {o : Fin 32} (v : Byte) (h : o ≠ 0x1B) : cposLow (c.setReg o v) = cposLow c := by
  rw [cposLow, reg_setReg_ne c v h.symm, setReg_rf_pend1B, cposLow]

theorem cposLow_setEvMask (c : Chip) (p : Phase) (m : BitVec 32) : cposLow (c.setEvMask p m) = cposLow c := by
  cases p <;> rfl

theorem cposLow_schedule (c : Chip) (p : Phase) (b : Nat) (d : Delay) : cposLow (c.schedule p b d) = cposLow c :=
  cposLow_setEvMask c _ _

theorem cposLow_loadHpos (p : Phase) (c : Chip) : cposLow (loadHpos p c) = cposLow c := by
  unfold loadHpos
  split
  · rfl
  · dsimp only
    split <;> exact cposLow_setReg c _ (by decide)

theorem cposLow_loadVsub (c : Chip) : cposLow (loadVsub c) = cposLow c := by
  unfold loadVsub
  split
  · rfl
  · exact cposLow_setReg c _ (by decide)

theorem cposLow_applyPend1A (c : Chip) : cposLow (applyPend1A c) = cposLow c := by
  unfold applyPend1A
  split
  · rfl
  · exact cposLow_setReg c _ (by decide)

theorem cposLow_stopDma (c : Chip) : cposLow (stopDma c) = cposLow c := by
  simp only [stopDma]
  split <;> rfl

/-- The value in flight is stored, and is in flight no longer (R741). -/
theorem cposLow_loadCposReload (c : Chip) :
    cposLow (loadCposReload c) = ((cposLow c).2.getD (cposLow c).1, none) := by
  rw [← cposLow_applyPend1A c, loadCposReload]
  generalize applyPend1A c = c'
  unfold applyPend1B
  cases h : c'.rf.pend1B with
  | none => simp only [cposLow, h, Option.getD_none]
  | some v =>
    have hreg : (c'.setReg 0x1B v).reg 0x1B = v := reg_setReg_same c' 0x1B v
    simp only [cposLow, h, Option.getD_some]
    exact Prod.ext hreg rfl

/-- But for its own micro-operation and the two line operations, none writes the register or its value in flight. -/
theorem cposLow_microOp_of_ne (p : Phase) {b : Nat} (c : Chip) (h1 : b ≠ 1) (h3 : b ≠ 3) (h4 : b ≠ 4) :
    cposLow (microOp p b c) = cposLow c := by
  unfold microOp
  split
  · exact cposLow_loadHpos p c
  · exact absurd rfl h1
  · exact cposLow_loadVsub c
  · exact absurd rfl h3
  · exact absurd rfl h4
  · rfl
  · exact cposLow_stopDma c
  · rfl

/-- A mask without the line operations applies the value in flight, where its bit is set, and else leaves it. -/
theorem cposLow_runEvents (p : Phase) {m : BitVec 32} (h3 : bit m 3 = false) (h4 : bit m 4 = false) (bs : List Nat)
    (c : Chip) : cposLow (runEvents p m bs c) =
      if 1 ∈ bs ∧ bit m 1 = true then ((cposLow c).2.getD (cposLow c).1, none) else cposLow c := by
  induction bs generalizing c with
  | nil => rfl
  | cons b bs ih =>
    rw [runEvents, ih]
    by_cases hb : b = 1
    · subst hb
      by_cases hm : bit m 1 = true
      · simp [hm, microOp, cposLow_loadCposReload]
      · simp [hm]
    · have hstep : cposLow (if bit m b then microOp p b c else c) = cposLow c := by
        split
        next hm =>
          exact cposLow_microOp_of_ne p c hb (by rintro rfl; rw [h3] at hm; cases hm)
            (by rintro rfl; rw [h4] at hm; cases hm)
        next => rfl
      rw [hstep]
      simp [Ne.symm hb]

theorem cposLow_dispatch {p : Phase} {c : Chip} (h3 : bit (c.evMask p) 3 = false) (h4 : bit (c.evMask p) 4 = false) :
    cposLow (dispatch p c) =
      if 1 ∈ c.cfg.eventOrder ∧ bit (c.evMask p) 1 = true then ((cposLow c).2.getD (cposLow c).1, none)
      else cposLow c := by
  rw [dispatch, cposLow_runEvents p h3 h4, cposLow_setEvMask]

/-- An admitted event order lists every micro-operation (R721). -/
theorem mem_eventOrder {p : Params} (h : p.valid = true) {b : Nat} (hb : b < 32) : b ∈ p.eventOrder := by
  simp only [Params.valid, Bool.and_eq_true] at h
  have hall : (List.range 32).all (fun b => p.eventOrder.contains b) = true := by
    have horder : eventOrderOk p.eventOrder = true := h.1.1.1.1.1.1.2
    simp only [eventOrderOk, Bool.and_eq_true] at horder
    exact horder.1.2
  simpa using List.all_eq_true.1 hall b (List.mem_range.2 hb)

/-- A delayed write of 0x1B puts its value in flight and leaves the register (R537). -/
theorem cposLow_writeCposReloadLo (p : Phase) (v : Byte) (c : Chip) :
    cposLow (writeCposReloadLo p v c) = (c.reg 0x1B, some v) :=
  cposLow_schedule _ p _ _

/-- It sets bit 1 of the mask that its delay names, and leaves the other mask. -/
theorem evMask_writeCposReloadLo (p q : Phase) (v : Byte) (c : Chip) :
    (writeCposReloadLo p v c).evMask q =
      if q = c.cfg.delayCpos.target p then setBit (c.evMask q) 1 else c.evMask q := by
  have hpend : ∀ q, Chip.evMask { c with rf.pend1B := some v } q = c.evMask q := by rintro (_ | _) <;> rfl
  rw [writeCposReloadLo, Chip.schedule, evMask_setEvMask, hpend, hpend]
  split
  next h => rw [h]; rfl
  next => rfl

theorem bit_setBit {w : Nat} (m : BitVec w) {b : Nat} (hb : b < w) (i : Nat) :
    bit (setBit m b) i = (bit m i || decide (b = i)) := by
  simp only [bit, setBit, BitVec.getLsbD_or, ← BitVec.twoPow_eq, BitVec.getLsbD_twoPow, hb, decide_true,
    Bool.true_and]

theorem ne_other (p : Phase) : p.other ≠ p := by cases p <;> decide

/-- Settles O29: the write leaves the register; its mask then applies the value in flight, and the other mask, being
empty, runs nothing. -/
theorem delayedWritesAreAppliedAtTheirDispatch : Obligations.DelayedWritesAreAppliedAtTheirDispatch := by
  intro s t v h
  have ht : t.chip = writeCposReloadLo s.chip.seq.phase v (accept 0xFF1B v s.chip) := chip_of_chipStep h
  have hlow : cposLow t.chip = (s.chip.reg 0x1B, some v) := by
    rw [ht, cposLow_writeCposReloadLo]
    rfl
  have hmask : ∀ q, t.chip.evMask q =
      if q = s.chip.cfg.delayCpos.target s.chip.seq.phase then setBit (s.chip.evMask q) 1 else s.chip.evMask q := by
    intro q
    rw [ht, evMask_writeCposReloadLo]
    cases q <;> rfl
  have hcfg : t.chip.cfg = s.chip.cfg := by
    rw [ht]
    exact setEvMask_cfg _ _ _
  refine ⟨congrArg Prod.fst hlow, ?_, ?_⟩
  · intro q hv h3 h4
    have hq : t.chip.evMask q = setBit (s.chip.evMask q) 1 := by rw [hmask, if_pos rfl]
    have hbit : ∀ i, bit (t.chip.evMask q) i = (bit (s.chip.evMask q) i || decide (1 = i)) := fun i => by
      rw [hq, bit_setBit _ (by decide)]
    have hrun : cposLow (dispatch q t.chip) = (v, none) := by
      rw [cposLow_dispatch (by rw [hbit, h3]; rfl) (by rw [hbit, h4]; rfl), hlow, hcfg, if_pos]
      · rfl
      · exact ⟨mem_eventOrder hv (by decide), by rw [hbit, decide_eq_true rfl, Bool.or_true]⟩
    exact ⟨congrArg Prod.fst hrun, congrArg Prod.snd hrun⟩
  · intro q hempty
    have hq : t.chip.evMask q = 0 := by rw [hmask, if_neg (ne_other _), hempty]
    have hrun : cposLow (dispatch q t.chip) = (s.chip.reg 0x1B, some v) := by
      rw [cposLow_dispatch (by rw [hq]; rfl) (by rw [hq]; rfl), hq, if_neg fun h => absurd h.2 (by decide), hlow]
    exact ⟨congrArg Prod.fst hrun, congrArg Prod.snd hrun⟩

/-! ## The bank latches (R590-R592) -/

/-- The addresses of the bank latch, as a block and as an offset from its first. -/
theorem bankLatch_addr (x : BitVec 4) : 0xFDD#12 ++ x = 0xFDD0#16 + x.setWidth 16 := by
  obtain ⟨x⟩ := x
  fin_cases x <;> rfl

/-- A write of the bank latch selects the banks that its address names (R592). -/
theorem exec_wrFDDx (x : BitVec 4) (v : Byte) (s : State) :
    exec (.wrFDDx x v) s = .next { s.afterWrite (0xFDD0#16 + x.setWidth 16) v with
      chip.lat.romBankLo := x.extractLsb' 0 2, chip.lat.romBankHi := x.extractLsb' 2 2 } := by
  rw [← bankLatch_addr]
  rfl

/-! ## The external I/O range (R593) -/

theorem ioRead_of_default {c : Chip} (h : c.cfg.ioReadLaw = none) (a : Addr) : ioRead a c = cpuMemRead a c := by
  simp only [ioRead, h]

theorem ioRead_of_handler {c : Chip} {k : Nat} (h : c.cfg.ioReadLaw = some k) (a : Addr) :
    ioRead a c = (ioDeliver a c (Config.ioRead k c.draws a)).drew 1 := by
  simp only [ioRead, h]

theorem ioWrite_of_default {c : Chip} (h : c.cfg.ioWriteLaw = none) (a : Addr) (v : Byte) :
    ioWrite a v c = cpuMemWrite a v c := by
  simp only [ioWrite, h]

theorem ioWrite_of_handler {c : Chip} {k : Nat} (h : c.cfg.ioWriteLaw = some k) (a : Addr) (v : Byte) :
    ioWrite a v c = (if Config.ioWrite k c.draws a v then accept a v c else cpuMemWrite a v c).drew 1 := by
  simp only [ioWrite, h]

theorem cpuMemWrite_draws (a : Addr) (v : Byte) (c : Chip) : (cpuMemWrite a v c).draws = c.draws := by
  obtain ⟨i, off, -, -, heq⟩ | ⟨-, heq⟩ := memWrite_cases a v (accept a v c) <;> rw [cpuMemWrite, heq] <;> rfl

/-- Settles O30: the latches take their write rules, and an access of the I/O range is split by its handler and the
handler's answer. -/
theorem bankLatchesAndIoRange : Obligations.BankLatchesAndIoRange := by
  intro s v lo x c
  refine ⟨rfl, rfl, exec_wrFDDx x v s, fun p hp => ⟨_, rfl, ?_⟩, fun p hp => ⟨_, rfl, ?_⟩⟩
  · have hrow : exec p.1 s = s.chipStep (ioRead p.2) := by fin_cases hp <;> rfl
    rw [hrow, State.chipStep, State.onChip]
    cases hlaw : c.cfg.ioReadLaw with
    | none => rw [ioRead_of_default hlaw]; rfl
    | some k =>
      rw [ioRead_of_handler hlaw]
      cases hanswer : Config.ioRead k c.draws p.2 <;> simp only [hanswer] <;> rfl
  · have hrow : exec p.1 s = s.chipStep (ioWrite p.2 v) := by fin_cases hp <;> rfl
    rw [hrow, State.chipStep, State.onChip]
    cases hlaw : c.cfg.ioWriteLaw with
    | none => rw [ioWrite_of_default hlaw]; rfl
    | some k =>
      rw [ioWrite_of_handler hlaw]
      cases htaken : Config.ioWrite k c.draws p.2 v with
      | true => simp only [htaken]; rfl
      | false =>
        simp only [htaken]
        rw [← cpuMemWrite_draws p.2 v c]
        rfl

/-! ## Memory (R594, R595) -/

/-- A read that resolves to a present byte returns it (R421). -/
theorem memReadValue_of_byte {k : AccessKind} {a : Addr} {c : Chip} {i : Nat} {off : BitVec 14} {v : Byte}
    (h : resolve k a c = some (i, off)) (hv : c.mem.read i off.toNat = some v) : memReadValue k a c = v := by
  rw [memReadValue_of_resolved h, hv, Option.getD_some]

/-- Settles O31: a CPU read is handed the byte of `memReadValue`, and each kind of read drives it. -/
theorem memoryReads : Obligations.MemoryReads := by
  intro s a
  refine ⟨fun i off v h hv => ?_, fun h => ?_, fun k _ => ⟨fun i off v h hv => ⟨memReadValue_of_byte h hv, ?_⟩,
    fun h => ⟨memReadValue_of_openBus h, memReadEffect_of_openBus h⟩⟩⟩
  · rw [exec_memRd, memReadValue_of_byte h hv]
  · rw [exec_memRd, memReadValue_of_openBus h]
  · rw [memReadEffect, memReadValue_of_byte h hv]
    rfl

/-- A CPU write that resolves to no RAM is ignored, but for the bus value (R422). -/
theorem exec_memWr_of_no_ram {s : State} {a : Addr} (v : Byte)
    (h : ∀ i off, resolve .cpuWrite a s.chip = some (i, off) → s.chip.mem.isRam i = false) :
    exec (.memWr a v) s = .next (s.afterWrite a v) := by
  have hwrite : memWrite a v (accept a v s.chip) = accept a v s.chip := by
    obtain ⟨i, off, hres, hram, -⟩ | ⟨-, heq⟩ := memWrite_cases a v (accept a v s.chip)
    · have hnot : s.chip.mem.isRam i = false := h i off hres
      exact absurd hram (by rw [Bool.not_eq_true]; exact hnot)
    · exact heq
  rw [exec_memWr, State.onChip, hwrite]
  rfl

/-- The byte of a RAM slot after it is written, and every other byte as before. -/
theorem read_write_ram {m : Memory} {i : Nat} (h : m.isRam i = true) (off : BitVec 14) (v : Byte) (k : Nat)
    (off' : BitVec 14) :
    (m.write i off.toNat v).read k off'.toNat = if i = k ∧ off = off' then some v else m.read k off'.toNat := by
  simp only [read_write _ _ _ _ _ _ off.isLt off'.isLt, BitVec.toNat_inj]
  split
  next heq =>
    obtain ⟨size, fp, hseg⟩ := (isRam_eq m i).1 h
    rw [← heq.1, hseg, Option.map_some]
  next => rfl

/-- Settles O33: split by whether CPU_WRITE resolves to a RAM slot. -/
theorem memoryWrites : Obligations.MemoryWrites := by
  intro s a v
  by_cases hto : ∃ i off, resolve .cpuWrite a s.chip = some (i, off) ∧ s.chip.mem.isRam i = true
  · obtain ⟨i, off, hres, hram⟩ := hto
    refine ⟨_, exec_memWr_of_ram v hres hram, rfl, rfl, rfl, fun k off' => ?_⟩
    rw [read_write_ram hram, hres]
    refine if_congr ?_ rfl rfl
    rw [Option.some.injEq, Prod.mk.injEq]
    exact ⟨fun heq => ⟨heq, heq.1 ▸ hram⟩, And.left⟩
  · refine ⟨s.chip.mem, exec_memWr_of_no_ram v fun i off hres => ?_, rfl, rfl, rfl, fun k off => ?_⟩
    · rw [← Bool.not_eq_true]
      exact fun hram => hto ⟨i, off, hres, hram⟩
    · rw [if_neg fun hram => hto ⟨k, off, hram⟩]

end Sys2Proof.Proofs

/-! # Proofs: the micro-operations of the delayed events -/

namespace Sys2Proof.Proofs

open Sys2Proof.Machine Sys2Proof.Laws

/-- An operation of the chip alone changes nothing else of the state; `hrow` names the operation of the row. -/
theorem exec_of_chipStep {i : Instr} {s : State} {f : Chip → Chip} {c : Chip} (hrow : exec i s = s.chipStep f)
    (h : f s.chip = c) : exec i s = .next { s with chip := c } := by
  rw [hrow, State.chipStep, State.onChip, h]

/-! ## The horizontal position (R740, R747) -/

section
variable {p : Phase} {c : Chip} {v : Byte}

theorem loadHpos_of_not_pending (h : c.rf.pend1E = none) : loadHpos p c = c := by
  rw [loadHpos, h]

theorem loadHpos_of_column (h : c.rf.pend1E = some v) {col : Nat} (hcol : c.cfg.hposWrite v p = col) (hlt : col < 114) :
    loadHpos p c = { c.setReg 0x1E v with rf.pend1E := none, seq.column := ⟨col, hlt⟩ } := by
  subst hcol
  rw [loadHpos, h]
  exact dif_pos hlt

theorem loadHpos_of_no_column (h : c.rf.pend1E = some v) (hge : 114 ≤ c.cfg.hposWrite v p) :
    loadHpos p c = { c.setReg 0x1E v with rf.pend1E := none, refused := true } := by
  rw [loadHpos, h]
  exact dif_neg (Nat.not_lt.2 hge)

end

/-- Settles O37: the cases of the micro-operation, with the column looked up in the phase's table. -/
theorem horizontalPositionLoads : Obligations.HorizontalPositionLoads := by
  intro s
  refine ⟨fun h => exec_of_chipStep rfl (loadHpos_of_not_pending h), ?_⟩
  intro v h g col
  have hcol : g.hposWrite v s.chip.seq.phase = col := by
    simp only [col]
    cases s.chip.seq.phase <;> rfl
  exact ⟨fun hlt => exec_of_chipStep rfl (loadHpos_of_column h hcol hlt),
    fun hge => exec_of_chipStep rfl (loadHpos_of_no_column h (hcol ▸ hge))⟩

/-! ## The character-position reload and the sub-address (R741, R742) -/

section
variable {c : Chip} {v w : Byte}

theorem applyPend1A_of_none (h : c.rf.pend1A = none) : applyPend1A c = c := by
  rw [applyPend1A, h]

theorem applyPend1A_of_some (h : c.rf.pend1A = some v) :
    applyPend1A c = { c.setReg 0x1A v with rf.pend1A := none } := by
  rw [applyPend1A, h]

theorem applyPend1B_of_none (h : c.rf.pend1B = none) : applyPend1B c = c := by
  rw [applyPend1B, h]

theorem applyPend1B_of_some (h : c.rf.pend1B = some w) :
    applyPend1B c = { c.setReg 0x1B w with rf.pend1B := none } := by
  rw [applyPend1B, h]

theorem loadVsub_of_none (h : c.rf.pend1F = none) : loadVsub c = c := by
  rw [loadVsub, h]

theorem loadVsub_of_some (h : c.rf.pend1F = some v) :
    loadVsub c = { c.setReg 0x1F v with
      rf.pend1F := none, seq.flashCnt := field v 3 4, seq.charSub := field v 0 3 } := by
  rw [loadVsub, h]

end

/-- Settles O38: storing the value pending for the high register leaves the one pending for the low register, so the two
loads combine freely. -/
theorem pendingValuesLoad : Obligations.PendingValuesLoad := by
  refine ⟨fun s ha hb => ?_, fun s v ha hb => ?_, fun s w ha hb => ?_, fun s v w ha hb => ?_,
    fun s h => exec_of_chipStep rfl (loadVsub_of_none h), fun s v h => exec_of_chipStep rfl (loadVsub_of_some h)⟩ <;>
    refine exec_of_chipStep (f := loadCposReload) rfl ?_
  · rw [loadCposReload, applyPend1A_of_none ha, applyPend1B_of_none hb]
  · rw [loadCposReload, applyPend1A_of_some ha]
    exact applyPend1B_of_none hb
  · rw [loadCposReload, applyPend1A_of_none ha]
    exact applyPend1B_of_some hb
  · rw [loadCposReload, applyPend1A_of_some ha]
    exact applyPend1B_of_some hb

/-! ## The renderer and the DMA (R745, R746) -/

/-- The mode table of R340, as nested conditions on the three bits. -/
theorem rendererOf_eq (ecm bmm mcm : Bool) :
    rendererOf ecm bmm mcm =
      if ecm then (if bmm || mcm then .invalid else .ecmText)
      else if bmm then (if mcm then .mcBmp else .hiresBmp)
      else (if mcm then .mcText else .text) := by
  cases ecm <;> cases bmm <;> cases mcm <;> rfl

theorem stopDma_eq (c : Chip) :
    stopDma c = { c with
      seq.busMode := .cpuRun
      trace := if c.seq.busMode = .chipDma then .setIsCPURunning true :: c.trace else c.trace } := by
  unfold stopDma
  split <;> rfl

/-- Settles O41: the mode table at the registers as they are, and the call where the chip had the bus. -/
theorem rendererSelectionAndDmaStop : Obligations.RendererSelectionAndDmaStop := by
  intro s r chosen
  have hchosen : rendererOf s.chip.ecm s.chip.bmm s.chip.mcm = chosen := rendererOf_eq _ _ _
  refine ⟨exec_of_chipStep (f := selectRenderer) rfl ?_, exec_of_chipStep (f := stopDma) rfl (stopDma_eq _)⟩
  rw [selectRenderer, hchosen]

/-! ## The state change of another line operation -/

/-- The call in the trace of `changed` is that of `handOver` (R821, R746). -/
theorem changed_trace (s : State) (x : StateChange) (line : BitVec 9) (stat : Byte) :
    (s.changed x line stat).chip.trace = handOver s.chip.seq.busMode x.busMode ++ s.chip.trace := by
  unfold State.changed
  cases s.chip.seq.busMode <;> cases x.busMode <;> rfl

/-- `changed` is the model's `change`, with the line and the interrupt status set. -/
theorem changed_eq (s : State) (x : StateChange) (line : BitVec 9) (stat : Byte) :
    s.changed x line stat =
      { s with chip := { s.chip.change x with seq.videoLine := line, irq.stat := stat } } := by
  calc s.changed x line stat
    _ = { s with chip := { s.chip.change x with
          seq.videoLine := line, irq.stat := stat, trace := (s.changed x line stat).chip.trace } } := rfl
    _ = _ := by rw [changed_trace]; rfl

theorem updateRow_eq_changed (x : RowUpdate) (s : State) :
    { s with chip := s.chip.updateRow x } =
      ((s.changed x.rest s.chip.seq.videoLine s.chip.irq.stat).stored 0x1A x.reloadHi).stored 0x1B x.reloadLo := by
  rw [changed_eq]
  rfl

theorem incrementLine_eq_changed (x : LineIncrement) (s : State) :
    { s with chip := s.chip.incrementLine x } =
      ((s.changed x.row.rest x.line (if x.raster then s.chip.irq.stat ||| 0x02 else s.chip.irq.stat)).stored
        0x1A x.row.reloadHi).stored 0x1B x.row.reloadLo := by
  rw [changed_eq, Chip.incrementLine]
  cases x.raster <;> rfl

/-! ## The vertical sub-address (R744) -/

/-- The two bits of the reload value replace the two low bits of the high register. -/
theorem cposReloadHigh_eq (b : Byte) (h : BitVec 2) : (b &&& 0xFC) ||| h.setWidth 8 = b.extractLsb' 2 6 ++ h := by
  have hmask : ∀ i < 8, (0xFC : Byte).getLsbD i = decide (2 ≤ i) := by decide
  apply BitVec.eq_of_getLsbD_eq
  intro i hi
  rw [BitVec.getLsbD_or, BitVec.getLsbD_and, hmask i hi, BitVec.getLsbD_setWidth, BitVec.getLsbD_append]
  by_cases hlow : i < 2
  · simp [hlow, hi]
  · have hsplit : 2 + (i - 2) = i := by omega
    have hplace : i - 2 < 6 := by omega
    simp [hlow, hsplit, hplace, Nat.le_of_not_lt hlow]

theorem setCposReload_eq (c : Chip) (x : BitVec 10) :
    c.setCposReload x = (c.setReg 0x1A (field (c.reg 0x1A) 2 6 ++ field x 8 2)).setReg 0x1B (field x 0 8) := by
  rw [Chip.setCposReload, cposReloadHigh_eq]
  rfl

section
variable {c : Chip}

theorem defaultVsubUpdate_of_outside (h : c.seq.winV = false) : defaultVsubUpdate c = c :=
  if_neg (by rw [h]; decide)

theorem defaultVsubUpdate_of_inside (h : c.seq.winV = true) :
    defaultVsubUpdate c =
      if c.seq.charSub = 7 then
        if c.seq.videoLine = c.vstart then { c with seq.charSub := 0 }
        else { c.setCposReload c.seq.charPos with seq.charSub := 0 }
      else { c with seq.charSub := c.seq.charSub + 1 } :=
  if_pos h

theorem updateVsub_of_default (h : c.cfg.vsubLaw = none) : updateVsub c = defaultVsubUpdate c := by
  rw [updateVsub, h]

theorem updateVsub_of_law {k : Nat} (h : c.cfg.vsubLaw = some k) :
    updateVsub c = c.updateRow (Config.vsubUpdate k c.elements) := by
  rw [updateVsub, h]

end

/-- Settles O40: the cases of the default operation, and the state change of another. -/
theorem subAddressUpdates : Obligations.SubAddressUpdates := by
  intro s q r vstart
  refine ⟨fun hlaw => ?_, fun k hlaw => ?_⟩
  · have hdefault : updateVsub s.chip = defaultVsubUpdate s.chip := updateVsub_of_default hlaw
    refine ⟨fun hout => ?_, fun hin hsub => ?_, fun hin hsub hline => ?_, fun hin hsub hline => ?_⟩ <;>
      refine exec_of_chipStep rfl (hdefault.trans ?_)
    · exact defaultVsubUpdate_of_outside hout
    · rw [defaultVsubUpdate_of_inside hin]
      exact if_neg hsub
    · rw [defaultVsubUpdate_of_inside hin, if_pos hsub]
      exact if_pos hline
    · rw [defaultVsubUpdate_of_inside hin, if_pos hsub, setCposReload_eq]
      exact if_neg hline
  · rw [exec_of_chipStep rfl (updateVsub_of_law hlaw), updateRow_eq_changed]

/-! ## The video line (R743) -/

theorem nextLine_eq (c : Chip) :
    c.nextLine = if c.seq.videoLine.toNat + 1 = c.lines ∨ c.seq.videoLine = 511 then 0 else c.seq.videoLine + 1 := by
  have hlast : c.seq.videoLine.toNat = 511 ↔ c.seq.videoLine = 511 := BitVec.toNat_inj (y := 511)
  simp only [Chip.nextLine, hlast]

/-- The window's two lines differ, so the order of the two tests does not matter; the last line's is said first. -/
theorem verticalWindow_eq (c : Chip) :
    verticalWindow c = { c with seq.winV :=
      if c.seq.videoLine = c.vend then false else if c.seq.videoLine = c.vstart then c.den else c.seq.winV } := by
  unfold verticalWindow
  by_cases hstart : c.seq.videoLine = c.vstart
  · rw [if_pos hstart, if_pos hstart]
    exact (apply_ite (fun b => { c with seq.winV := b }) (c.seq.videoLine = c.vend) false c.den).symm
  · rw [if_neg hstart, if_neg hstart]
    exact (apply_ite (fun b => { c with seq.winV := b }) (c.seq.videoLine = c.vend) false c.seq.winV).symm

theorem frameStart_videoLine (c : Chip) : (frameStart c).seq.videoLine = c.seq.videoLine := by
  unfold frameStart
  split <;> rfl

theorem frameStart_irq (c : Chip) : (frameStart c).irq = c.irq := by
  unfold frameStart
  split <;> rfl

/-- The start of a frame writes the reload registers alone (R743). -/
theorem frameStart_reg (c : Chip) {o : Fin 32} (ha : o ≠ 0x1A) (hb : o ≠ 0x1B) : (frameStart c).reg o = c.reg o := by
  unfold frameStart
  split
  · exact (reg_setReg_ne _ _ hb).trans (reg_setReg_ne _ _ ha)
  · rfl

theorem frameStart_rasterCompare (c : Chip) : (frameStart c).rasterCompare = c.rasterCompare := by
  rw [Chip.rasterCompare, frameStart_reg c (by decide) (by decide), frameStart_reg c (by decide) (by decide)]
  rfl

/-- The raster compare reads what the start of a frame leaves. -/
theorem compareRaster_frameStart (c : Chip) :
    compareRaster (frameStart c) =
      if c.seq.videoLine = c.rasterCompare then { frameStart c with irq.stat := c.irq.stat ||| 0x02 }
      else frameStart c := by
  have hstat : setBit (frameStart c).irq.stat 1 = c.irq.stat ||| 0x02 := by rw [frameStart_irq]; rfl
  rw [compareRaster, frameStart_videoLine, frameStart_rasterCompare, Chip.raiseIrq, hstat]

section
variable {c : Chip}

theorem incVideoLine_of_default (h : c.cfg.incLineLaw = none) : incVideoLine c = defaultIncLine c := by
  rw [incVideoLine, h]

theorem incVideoLine_of_law {k : Nat} (h : c.cfg.incLineLaw = some k) :
    incVideoLine c = c.incrementLine (Config.incLine k c.elements) := by
  rw [incVideoLine, h]

end

/-- Settles O39: the new line and the window give `s1`, the start of a frame `s2`, and the raster compare reads the line
and the registers of `s1`; another operation is its state change. -/
theorem videoLineIncrements : Obligations.VideoLineIncrements := by
  intro s q r lines line rsel winV s1 s2
  refine ⟨fun hlaw => ?_, fun k hlaw => ?_⟩
  · have hline : s.chip.nextLine = line := nextLine_eq s.chip
    have hwindow : verticalWindow { s.chip with seq.videoLine := line } = s1.chip := verticalWindow_eq _
    have hframe : { s with chip := frameStart s1.chip } = s2 := by
      exact apply_ite (fun c => { s with chip := c }) (line = 0) _ _
    have hstep : incVideoLine s.chip = compareRaster (frameStart s1.chip) := by
      rw [incVideoLine_of_default hlaw, defaultIncLine, hline, hwindow]
    rw [exec_of_chipStep rfl (hstep.trans (compareRaster_frameStart _)), ← hframe]
    exact congrArg _ (apply_ite (fun c => { s with chip := c }) (line = s1.chip.rasterCompare) _ _)
  · rw [exec_of_chipStep rfl (incVideoLine_of_law hlaw), incrementLine_eq_changed]

end Sys2Proof.Proofs

/-! # Proofs: run() split, the phases, the column table, the bus steps, the chip's fetches and the timers -/

namespace Sys2Proof.Proofs

open Sys2Proof.Machine Sys2Proof.Laws

/-! ## run(), split (R804) -/

/-- Ticks that come after a budget is used up are added to its carry. -/
theorem runBudget_add {m : Int} (hm : 0 ≤ m) (b : Int) (c : Chip) :
    runBudget (b + m) c = runBudget ((runBudget b c).1 + m) (runBudget b c).2 := by
  by_cases hpos : 0 < b
  · have hticks := cycleTicks_pos c.seq.ntsc
    have hrest : b + m - cycleTicks c.seq.ntsc = b - cycleTicks c.seq.ntsc + m := by omega
    rw [runBudget_of_pos c hpos, runBudget_of_pos c (by omega : 0 < b + m), hrest]
    exact runBudget_add hm (b - cycleTicks c.seq.ntsc) (cycle c)
  · rw [runBudget_of_nonpos (b := b) c (by omega)]
termination_by b.toNat

/-- Settles O13: the second call adds its ticks to the carry that the first one leaves. -/
theorem runSplits : Obligations.RunSplits := by
  intro s t u n m hn hm hfirst hsecond
  cases (execHostRun_of_nonneg s hn).symm.trans hfirst
  rw [← hsecond]
  refine (execHostRun_of_nonneg s (Int.add_nonneg hn hm)).trans (.trans ?_ (execHostRun_of_nonneg _ hm).symm)
  rw [← Int.add_assoc, runBudget_add hm]
  rfl

/-! ## The phases (R810, R811) -/

theorem nextColumn_eq_add_one (col : Fin 114) : nextColumn col = col + 1 := by
  apply Fin.ext
  rw [nextColumn, Fin.val_add]
  split
  next hlt => exact (Nat.mod_eq_of_lt hlt).symm
  next hge =>
    have hlast : col.val + 1 = 114 := by omega
    exact (congrArg (· % 114) hlast).symm

theorem endPhase_eq (p : Phase) (c : Chip) :
    endPhase p c = { c with seq.column := c.seq.column + 1, seq.phase := p.other } := by
  rw [endPhase, nextColumn_eq_add_one]

/-- In its own phase a phase step begins with the dispatch of the chip as it is. -/
theorem beginPhase_of_phase {p : Phase} {c : Chip} (h : c.seq.phase = p) :
    beginPhase p c = callbackStep p (columnTransitions p (dispatch p c)) := by
  subst h
  rfl

/-- Settles O16: the steps are composed in this order, and the phase ends with the column advance. -/
theorem phaseStepsRunInOrder : Obligations.PhaseStepsRunInOrder := by
  constructor <;> intro s hphase
  · refine exec_of_chipStep (f := phaseEven) rfl ?_
    rw [phaseEven, endPhase_eq, beginPhase_of_phase hphase]
    rfl
  · refine exec_of_chipStep (f := phaseOdd) rfl ?_
    rw [phaseOdd, endPhase_eq, beginPhase_of_phase hphase]
    rfl

/-! ## The column transitions (R812-R814) -/

section
variable {p : Phase} {c : Chip}

theorem columnTransitions_of_default (h : c.cfg.columnLaw = none) :
    columnTransitions p c = applyTransitions p (defaultColumnTable p c) c := by
  rw [columnTransitions, columnTable, h]

/-- The transitions of the default table at a column, read off the table there. -/
theorem columnTransitions_at {col : Fin 114} (hlaw : c.cfg.columnLaw = none) (hcol : c.seq.column = col)
    (ts : List Transition) (htable : defaultColumnTable p { c with seq.column := col } = ts) :
    columnTransitions p c = applyTransitions p ts c := by
  subst hcol
  exact htable ▸ columnTransitions_of_default hlaw

theorem columnTransitions_of_law {k : Nat} (h : c.cfg.columnLaw = some k) :
    columnTransitions p c = applyTransitions p (Config.columnTable k p c.seq.column c.elements) c := by
  rw [columnTransitions, columnTable, h]

end

theorem applyTransitions_eq_foldl (p : Phase) (ts : List Transition) (c : Chip) :
    applyTransitions p ts c = ts.foldl (fun d t => t.apply p d) c := by
  induction ts generalizing c with
  | nil => rfl
  | cons t ts ih => exact ih (t.apply p c)

theorem applyTransitions_ite (p : Phase) (b : Prop) [Decidable b] (t : Transition) (c : Chip) :
    applyTransitions p (if b then [t] else []) c = if b then t.apply p c else c := by
  split <;> rfl

/-- The pairs of phase and column that the default table names (R813). -/
def tableColumns : List (Phase × Nat) :=
  [(.even, 0), (.even, 2), (.even, 82), (.even, 84), (.even, 88), (.odd, 89), (.even, 94), (.even, 96), (.odd, 97),
    (.odd, 99), (.even, 106), (.even, 110), (.even, 112)]

/-- At a pair that the default table does not name there is no transition. -/
theorem defaultColumnTable_of_not_mem {p : Phase} {c : Chip} (h : (p, c.seq.column.val) ∉ tableColumns) :
    defaultColumnTable p c = [] := by
  have hne : ∀ n, (p, n) ∈ tableColumns → c.seq.column.val ≠ n := fun n hn heq => h (heq ▸ hn)
  cases p with
  | even =>
    rw [defaultColumnTable]
    split
    case h_11 => rfl
    all_goals next hcol => exact absurd hcol (hne _ (by decide))
  | odd =>
    rw [defaultColumnTable]
    split
    case h_4 => rfl
    all_goals next hcol => exact absurd hcol (hne _ (by decide))

theorem vstart_toNat (c : Chip) : c.vstart.toNat = if c.rsel then 4 else 8 :=
  apply_ite BitVec.toNat _ _ _

theorem vend_toNat (c : Chip) : c.vend.toNat = if c.rsel then 204 else 200 :=
  apply_ite BitVec.toNat _ _ _

theorem dmaLine_iff (c : Chip) : c.dmaLine = true ↔
    c.den = true ∧ ((c.seq.winV = true ∧ c.seq.charSub = 0) ∨
      (c.seq.charSub = 7 ∧
        ((c.seq.winV = true ∧ c.seq.videoLine.toNat + 1 ≠ if c.rsel then 204 else 200) ∨
          c.seq.videoLine.toNat + 1 = if c.rsel then 4 else 8))) := by
  simp only [Chip.dmaLine, vstart_toNat, vend_toNat, Bool.and_eq_true, Bool.or_eq_true, beq_iff_eq, bne_iff_ne]

/-- The line increment sets bits 3 and 4 of the ODD mask, and bit 6 while a DMA is active (R826). -/
theorem scheduleLine_even (c : Chip) :
    scheduleLine .even c = { c with
      rf.evOdd := c.rf.evOdd ||| (if c.seq.busMode = .cpuRun then 0x18#32 else 0x58#32) } := by
  have hline : c.rf.evOdd ||| 0x18#32 = c.rf.evOdd ||| 0x08#32 ||| 0x10#32 :=
    (BitVec.or_assoc c.rf.evOdd 0x08#32 0x10#32).symm
  have hstop : c.rf.evOdd ||| 0x58#32 = c.rf.evOdd ||| 0x18#32 ||| 0x40#32 :=
    (BitVec.or_assoc c.rf.evOdd 0x18#32 0x40#32).symm
  unfold scheduleLine
  split
  · rw [hline]; rfl
  · rw [hstop, hline]; rfl

/-- A state change is that of the statement, with the line and the interrupt status as they were. -/
theorem change_eq_changed (x : StateChange) (s : State) :
    s.chip.change x = (s.changed x s.chip.seq.videoLine s.chip.irq.stat).chip := by
  rw [changed_eq]
  rfl

/-! The theorem has the name of the model's function, so it stands in a namespace of its own. -/
namespace ColumnTable

/-- Settles O17: the default table is read at each of its columns and is empty elsewhere; another table is applied in
order. -/
theorem columnTransitions : Obligations.ColumnTransitions := by
  refine ⟨fun p c hlaw hcol => ?_, fun c hlaw => ?_, fun p c k hlaw => ?_, fun p s x => change_eq_changed x s⟩
  · rw [columnTransitions_of_default hlaw, defaultColumnTable_of_not_mem hcol]
    rfl
  · refine ⟨fun h => columnTransitions_at hlaw h [.charactersStart] rfl,
      fun h => columnTransitions_at hlaw h [.windowStart] rfl,
      fun h => columnTransitions_at hlaw h [.windowStop, .singleClockStop] rfl,
      fun h => columnTransitions_at hlaw h [.refreshStart] rfl,
      fun h => columnTransitions_at hlaw h [.hBlankStart] rfl,
      fun h => columnTransitions_at hlaw h [.hSyncStart] rfl,
      fun h => columnTransitions_at hlaw h [.refreshStop] rfl,
      fun h => (columnTransitions_at hlaw h [.lineIncrement] rfl).trans (scheduleLine_even c),
      fun h => columnTransitions_at hlaw h [.blankAndSync] rfl,
      fun h => columnTransitions_at hlaw h [.hSyncStop] rfl,
      fun h => ?_,
      fun h => columnTransitions_at hlaw h [.hBlankStop] rfl,
      fun h => ?_⟩
    · intro den rsel charLine attrLine
      rw [columnTransitions_at hlaw h (if c.dmaLine then [.dmaRequest] else []) rfl, applyTransitions_ite]
      exact if_congr (dmaLine_iff c) rfl rfl
    · rw [columnTransitions_at hlaw h (if c.seq.busMode = .cpuHaltReq then [.dmaGrant] else []) rfl, applyTransitions_ite]
      rfl
  · rw [columnTransitions_of_law hlaw, applyTransitions_eq_foldl]

end ColumnTable

/-! ## The bus steps (R830-R835) -/

/-! ### A step of the external CPU, by the next line of its script -/

section
variable {c : Chip} {a : Addr} {v : Byte} {rest : List CpuLine}

theorem cpuStepHigh_of_exhausted (h : c.inp.cpuScript = []) : cpuStepHigh c = c.emit (.runRdyHigh c.cfg.cpuMult) := by
  simp only [cpuStepHigh, emit_inp, h]

theorem cpuStepHigh_of_nop (h : c.inp.cpuScript = .nop :: rest) :
    cpuStepHigh c = (c.emit (.runRdyHigh c.cfg.cpuMult)).setScript rest := by
  simp only [cpuStepHigh, emit_inp, h]

theorem cpuStepHigh_of_rd (h : c.inp.cpuScript = .rd a :: rest) :
    cpuStepHigh c = busRead a ((c.emit (.runRdyHigh c.cfg.cpuMult)).setScript rest) := by
  simp only [cpuStepHigh, emit_inp, h]

theorem cpuStepHigh_of_wr (h : c.inp.cpuScript = .wr a v :: rest) :
    cpuStepHigh c = busWrite a v ((c.emit (.runRdyHigh c.cfg.cpuMult)).setScript rest) := by
  simp only [cpuStepHigh, emit_inp, h]

theorem cpuStepLow_of_exhausted (h : c.inp.cpuScript = []) : cpuStepLow c = c.emit (.runRdyLow c.cfg.cpuMult) := by
  simp only [cpuStepLow, emit_inp, h]

theorem cpuStepLow_of_nop (h : c.inp.cpuScript = .nop :: rest) :
    cpuStepLow c = c.emit (.runRdyLow c.cfg.cpuMult) := by
  simp only [cpuStepLow, emit_inp, h]

theorem cpuStepLow_of_rd (h : c.inp.cpuScript = .rd a :: rest) : cpuStepLow c = c.emit (.runRdyLow c.cfg.cpuMult) := by
  simp only [cpuStepLow, emit_inp, h]

theorem cpuStepLow_of_wr (h : c.inp.cpuScript = .wr a v :: rest) :
    cpuStepLow c = busWrite a v ((c.emit (.runRdyLow c.cfg.cpuMult)).setScript rest) := by
  simp only [cpuStepLow, emit_inp, h]

end

/-! ### Who has the bus -/

section
variable {c : Chip}

theorem evenBusStep_of_cpuRun (h : c.seq.busMode = .cpuRun) : evenBusStep c = cpuStepHigh c := by
  rw [evenBusStep, h]

theorem evenBusStep_of_cpuHaltReq (h : c.seq.busMode = .cpuHaltReq) : evenBusStep c = cpuStepLow c := by
  rw [evenBusStep, h]

theorem evenBusStep_of_chipDma (h : c.seq.busMode = .chipDma) : evenBusStep c = dmaFetch c := by
  rw [evenBusStep, h]

theorem singleClock_eq_false_iff :
    c.singleClock = false ↔ bit c.rf.regs[0x13] 1 = false ∧ c.seq.scWin = false := Bool.or_eq_false_iff

theorem singleClock_eq_true_iff :
    c.singleClock = true ↔ bit c.rf.regs[0x13] 1 = true ∨ c.seq.scWin = true := Bool.or_eq_true_iff

theorem oddBusStep_of_refresh (h : c.seq.refresh = true) : oddBusStep c = c := if_pos h

theorem oddBusStep_of_singleClock (hrefresh : c.seq.refresh = false) (hsingle : c.singleClock = true) :
    oddBusStep c = bitmapFetch c := by
  rw [oddBusStep, hrefresh, hsingle]
  rfl

/-- Without refresh and single clock the ODD step is the CPU's, as the EVEN step is, unless the chip has the bus (R834). -/
theorem oddBusStep_of_doubleClock (hrefresh : c.seq.refresh = false) (hsingle : c.singleClock = false) :
    oddBusStep c = if c.seq.busMode = .chipDma then c else evenBusStep c := by
  rw [oddBusStep, hrefresh, hsingle, evenBusStep]
  cases c.seq.busMode <;> rfl

theorem dmaFetch_of_done (h : c.seq.charCol = 40) : dmaFetch c = c :=
  dif_neg (by rw [h]; decide)

theorem bitmapFetch_of_idle (h : c.seq.charCol = 40 ∨ c.seq.winV = false) : bitmapFetch c = c := by
  unfold bitmapFetch
  split
  next hlt =>
    have hcol : c.seq.charCol ≠ 40 := fun hdone => absurd (hdone ▸ hlt) (by decide)
    rw [h.resolve_left hcol]
    rfl
  next => rfl

end

/-- Settles O18: where the CPU has the step, both bus steps are the EVEN one, and the script's next line decides. -/
theorem busStepsFollowTheBusMode : Obligations.BusStepsFollowTheBusMode := by
  refine ⟨fun c busStep hstep => ?_, fun c hmode hdone => ?_, fun c => oddBusStep_of_refresh,
    fun c hrefresh hsingle hidle => ?_, fun c hrefresh hforce hwin hmode => ?_⟩
  · intro high low
    have hcpu : c.seq.busMode ≠ .chipDma → busStep c = evenBusStep c := by
      intro hmode
      obtain rfl | ⟨rfl, hrefresh, hdouble⟩ := hstep
      · rfl
      · rw [oddBusStep_of_doubleClock hrefresh (singleClock_eq_false_iff.2 hdouble), if_neg hmode]
    refine ⟨fun hmode => ?_, fun hmode => ?_⟩ <;> rw [hcpu (by rw [hmode]; decide)]
    · rw [evenBusStep_of_cpuRun hmode]
      exact ⟨cpuStepHigh_of_exhausted, fun _ => cpuStepHigh_of_nop, fun _ _ => cpuStepHigh_of_rd,
        fun _ _ _ => cpuStepHigh_of_wr⟩
    · rw [evenBusStep_of_cpuHaltReq hmode]
      exact ⟨cpuStepLow_of_exhausted, fun _ => cpuStepLow_of_nop, fun _ _ => cpuStepLow_of_rd,
        fun _ _ _ => cpuStepLow_of_wr⟩
  · rw [evenBusStep_of_chipDma hmode, dmaFetch_of_done hdone]
  · rw [oddBusStep_of_singleClock hrefresh (singleClock_eq_true_iff.2 hsingle), bitmapFetch_of_idle hidle]
  · rw [oddBusStep_of_doubleClock hrefresh (singleClock_eq_false_iff.2 ⟨hforce, hwin⟩), if_pos hmode]

/-! ## The chip's fetches (R905-R907) -/

theorem bitmapMode_eq (c : Chip) : c.bitmapMode =
    (decide (c.seq.renderer = .hiresBmp ∨ c.seq.renderer = .mcBmp) || (decide (c.seq.renderer = .invalid) && c.bmm)) := by
  unfold Chip.bitmapMode
  cases c.seq.renderer <;> rfl

theorem ecmMode_eq (c : Chip) : c.ecmMode =
    (decide (c.seq.renderer = .ecmText) || (decide (c.seq.renderer = .invalid) && !c.bmm)) := by
  unfold Chip.ecmMode
  cases c.seq.renderer <;> rfl

theorem charCode_eq (c : Chip) (ch : Byte) :
    c.charCode ch = if c.ecmMode then ch &&& 0x3F else if c.rvsOff then ch else ch &&& 0x7F := by
  unfold Chip.charCode
  cases c.rvsOff <;> rfl

/-- Inside the vertical window the address is one row ahead of the current position (R905). -/
theorem attrAddr_eq (c : Chip) : c.attrAddr =
    c.fetchAddr .attr (c.videoBase + (if c.seq.winV then c.seq.charPos + 40 else c.seq.charPos).setWidth 16) := by
  unfold Chip.attrAddr
  cases c.seq.winV
  · rw [if_neg Bool.false_ne_true, if_neg Bool.false_ne_true, BitVec.add_zero]
  · rfl

/-- Row `charSub` of the cell of the bitmap, or of the character's glyph (R907). -/
theorem bitmapAddr_eq (c : Chip) (ch : Byte) : c.bitmapAddr ch = c.fetchAddr .bitmap
    ((if c.bitmapMode then c.bitmapBase + (c.seq.charPos ++ 0#3).setWidth 16
      else c.charBase + (c.charCode ch ++ 0#3).setWidth 16) + c.seq.charSub.setWidth 16) := by
  unfold Chip.bitmapAddr
  split <;> rfl

section
variable {c : Chip} (h : c.seq.charCol.val < 40)

theorem dmaFetch_of_last_line (hsub : c.seq.charSub = 7) : dmaFetch c = fetchAttr c h := by
  rw [dmaFetch, dif_pos h, if_pos hsub]

theorem dmaFetch_of_other_line (hsub : c.seq.charSub ≠ 7) : dmaFetch c = fetchChar c h := by
  rw [dmaFetch, dif_pos h, if_neg hsub]

/-- The bitmap fetch while a character remains (R832). -/
theorem bitmapFetch_of_lt {v : Byte}
    (hv : memReadValue .chipBitmapRead (c.bitmapAddr c.vid.charBuf[c.seq.charCol.val]) c = v) :
    bitmapFetch c = if c.seq.winV then { c with lat.busValue := v, vid.fetched := v } else c := by
  subst hv
  rw [bitmapFetch, dif_pos h]
  rfl

end

/-- Settles O19: each address of the statement is the model's, and the fetch stores the byte read there. -/
theorem chipFetches : Obligations.ChipFetches := by
  intro c h r q source matrix ahead attr char code invalid bmp ecm glyph cell bits
  have hattr : c.attrAddr = source .attr (matrix + ahead.setWidth 16) := attrAddr_eq c
  have hglyph : c.charCode code = glyph := by
    rw [charCode_eq, ecmMode_eq]
    rfl
  have hcell : c.bitmapAddr code = source .bitmap (cell + q.charSub.setWidth 16) := by
    rw [bitmapAddr_eq, bitmapMode_eq, hglyph]
    rfl
  refine ⟨fun hmode hsub => ?_, fun hmode hsub => ?_, fun hrefresh hsingle => ?_⟩
  · rw [evenBusStep_of_chipDma hmode, dmaFetch_of_last_line h hsub, fetchAttr, hattr]
    rfl
  · rw [evenBusStep_of_chipDma hmode, dmaFetch_of_other_line h hsub]
    rfl
  · rw [oddBusStep_of_singleClock hrefresh (singleClock_eq_true_iff.2 hsingle)]
    exact bitmapFetch_of_lt h (congrArg (memReadValue .chipBitmapRead · c) hcell)

/-! ## The timers and the interrupt line (R840, R841, R1112) -/

theorem irqActive_eq (c : Chip) : c.irqActive = decide (c.irq.stat &&& c.rf.regs[0x0A] &&& 0x5E ≠ 0) :=
  Bool.eq_iff_iff.2 (bne_iff_ne.trans decide_eq_true_iff.symm)

section
variable {c : Chip}

theorem updateTimer1_of_stopped (h : c.tmr.run1 = false) : updateTimer1 c = c := by
  rw [updateTimer1, h]
  rfl

theorem updateTimer1_of_running (h : c.tmr.run1 = true) :
    updateTimer1 c = if c.tmr.tmr1 = 0 then { c with tmr.tmr1 := c.tmr.latch1, irq.stat := c.irq.stat ||| 0x08 }
      else { c with tmr.tmr1 := c.tmr.tmr1 - 1 } := if_pos h

theorem updateTimer2_of_stopped (h : c.tmr.run2 = false) : updateTimer2 c = c := by
  rw [updateTimer2, h]
  rfl

theorem updateTimer2_of_running (h : c.tmr.run2 = true) :
    updateTimer2 c = if c.tmr.tmr2 = 0 then { c with tmr.tmr2 := 0xFFFF, irq.stat := c.irq.stat ||| 0x10 }
      else { c with tmr.tmr2 := c.tmr.tmr2 - 1 } := if_pos h

theorem updateTimer3_of_stopped (h : c.tmr.run3 = false) : updateTimer3 c = c := by
  rw [updateTimer3, h]
  rfl

theorem updateTimer3_of_running (h : c.tmr.run3 = true) :
    updateTimer3 c = if c.tmr.tmr3 = 0 then { c with tmr.tmr3 := 0xFFFF, irq.stat := c.irq.stat ||| 0x40 }
      else { c with tmr.tmr3 := c.tmr.tmr3 - 1 } := if_pos h

end

/-- Settles O43: each timer stopped, above 0 and at 0; the check compares the level with the line. -/
theorem timersAndTheInterruptLine : Obligations.TimersAndTheInterruptLine := by
  intro c t line
  have hactive : c.irqActive = line := irqActive_eq c
  refine ⟨updateTimer1_of_stopped, fun hrun hne => (updateTimer1_of_running hrun).trans (if_neg hne),
    fun hrun hzero => (updateTimer1_of_running hrun).trans (if_pos hzero),
    updateTimer2_of_stopped, fun hrun hne => (updateTimer2_of_running hrun).trans (if_neg hne),
    fun hrun hzero => (updateTimer2_of_running hrun).trans (if_pos hzero),
    updateTimer3_of_stopped, fun hrun hne => (updateTimer3_of_running hrun).trans (if_neg hne),
    fun hrun hzero => (updateTimer3_of_running hrun).trans (if_pos hzero), ?_⟩
  rw [Chip.interruptCheck, hactive]
  rfl

end Sys2Proof.Proofs

/-! # Proofs: the video pipeline -/

namespace Sys2Proof.Proofs

open Sys2Proof.Machine Sys2Proof.Laws

/-! ## The buffer and the sink (R950, R952, R960) -/

theorem videoOk_of_good {s : State} (h : Good s = true) : videoOk s.chip.cfg s.chip.vid = true := by
  obtain ⟨-, hchip, -⟩ := (good_iff s).1 h
  obtain ⟨-, hparts⟩ := (chipOk_iff s.chip).1 hchip
  simp only [partsOk, Bool.and_eq_true] at hparts
  obtain ⟨⟨-, hvideo⟩, -⟩ := hparts
  exact hvideo

/-- What the end of a render does to the buffer and the trace: the record is kept where the buffer stays within the
threshold, and with it the whole buffer goes to the sink where it does not (R960). -/
theorem emitGroup_buffer_cases (sel : RenderSel) (rem : Nat) (g : Group) (c : Chip) :
    let buf := c.vid.outBuf ++ g.record c.solidBit (c.recordFlags sel.isBorder)
    let d := emitGroup sel rem g c
    (buf.length ≤ 450 ∧ d.trace = c.trace ∧ d.vid.outBuf = buf) ∨
      (450 < buf.length ∧ d.trace = .video buf buf.length :: c.trace ∧ d.vid.outBuf = []) := by
  intro buf d
  have hd : d = shiftBitmap (flushCheck { c.drew (sel.drawn rem) with vid.outBuf := buf }) := rfl
  rw [hd]
  by_cases hfull : 450 < buf.length
  · rw [flushCheck_of_full hfull]
    exact .inr ⟨hfull, rfl, rfl⟩
  · rw [flushCheck_of_not_full hfull]
    exact .inl ⟨Nat.le_of_not_lt hfull, rfl, rfl⟩

/-- Settles O48: the buffer of a good state with one more record is whole records, and it is either kept or handed over. -/
theorem flushesHoldWholeRecords : Obligations.FlushesHoldWholeRecords := by
  intro s p hgood c
  have hvalid := ((good_iff s).1 hgood).1
  have hvideo := videoOk_of_good hgood
  simp only [videoOk, Bool.and_eq_true, decide_eq_true_eq] at hvideo
  obtain ⟨hheld : s.chip.outPos ≤ 450, hwhole⟩ := hvideo
  let sel := renderSelection s.chip
  let g := sel.invoke (pixelRem p s.chip) s.chip
  let record := g.record s.chip.solidBit (s.chip.recordFlags sel.isBorder)
  have hmin : 2 ≤ record.length := (record_length g _ _).1
  have hmax : record.length ≤ 5 := (record_length g _ _).2
  have hlen : (s.chip.vid.outBuf ++ record).length = s.chip.outPos + record.length := List.length_append
  have hrecords : wholeRecords s.chip.cfg.flagsLayout.solid (s.chip.vid.outBuf ++ record) = true :=
    wholeRecords_append _ _ g _ (recordFlags_bit s.chip hvalid _) hwhole
  obtain ⟨hkept, htrace, hbuf⟩ | ⟨hfull, htrace, hbuf⟩ :=
    emitGroup_buffer_cases sel (pixelRem p s.chip) g s.chip
  · have hpos : c.outPos = s.chip.outPos + record.length := (congrArg List.length hbuf).trans hlen
    have hle : s.chip.outPos + record.length ≤ 450 := hlen ▸ hkept
    exact .inl ⟨htrace, by omega, by omega, by omega, (congrArg _ hbuf).trans hrecords⟩
  · have hle : s.chip.outPos + record.length ≤ 455 := by omega
    exact .inr ⟨_, htrace, hfull, hlen ▸ hle, hrecords, congrArg List.length hbuf⟩

/-! ## The flags of the shift register (R911, R1231) -/

/-- A flags byte with its two low bits replaced: under a mask, and as fields. -/
theorem maskedFlags_eq_fields (f : Byte) (cursor reverse : Bool) :
    (f &&& 0xFC) ||| byteBit cursor 0 ||| byteBit reverse 1 =
      f.extractLsb' 2 6 ++ BitVec.ofBool reverse ++ BitVec.ofBool cursor := by
  revert f; cases cursor <;> cases reverse <;> decide

theorem fields_of_ownBits (f : Byte) :
    f.extractLsb' 2 6 ++ BitVec.ofBool (f.getLsbD 1) ++ BitVec.ofBool (f.getLsbD 0) = f := by
  revert f; decide

section
variable {c : Chip}

theorem flagsCurrent_iff :
    c.flagsCurrent = true ↔ c.cursor = c.vid.sr.loaded.cursor ∧ c.rvsOff = c.vid.sr.loaded.rvsOff := by
  simp only [Chip.flagsCurrent, Bool.and_eq_true, beq_iff_eq, and_comm]

/-- Under the default flags, the flags read are the loaded ones with the two low bits as `refreshedFlags` has them. -/
theorem flagsRead_of_default (h : c.cfg.srFlagsLaw = none) : c.flagsRead = c.refreshedFlags := by
  simp only [Chip.flagsRead, h]
  exact (maskedFlags_eq_fields _ _ _).symm

theorem flagsRead_of_other {k : Nat} (h : c.cfg.srFlagsLaw = some k) :
    c.flagsRead = if c.flagsCurrent then c.vid.sr.flags else Config.srFlagsNow k c.vid.sr c.rf.regs := by
  simp only [Chip.flagsRead, h, flagsCurrent_iff]
  rfl

/-- Where neither register has changed, refreshing leaves the loaded flags. -/
theorem refreshedFlags_of_flagsCurrent (h : c.flagsCurrent = true) : c.refreshedFlags = c.vid.sr.flags := by
  obtain ⟨hcursor, hreverse⟩ := flagsCurrent_iff.1 h
  simp only [Chip.refreshedFlags, if_pos hcursor, if_pos hreverse]
  exact (maskedFlags_eq_fields _ _ _).trans (fields_of_ownBits _)

/-- The flags of the render step, whether the registers are compared before the parameter is chosen or after. -/
theorem flagsNow_eq_flagsRead (c : Chip) : c.flagsNow = c.flagsRead := by
  cases hlaw : c.cfg.srFlagsLaw with
  | some k => simp only [Chip.flagsNow, flagsRead_of_other hlaw, hlaw]
  | none =>
    rw [flagsRead_of_default hlaw]
    by_cases hcurrent : c.flagsCurrent = true
    · simp only [Chip.flagsNow, if_pos hcurrent, refreshedFlags_of_flagsCurrent hcurrent]
    · simp only [Chip.flagsNow, if_neg hcurrent, hlaw]

/-- If the shift register's flags are those of R911 under the registers of its load, then its refreshed flags are those of
R911 under the registers as they are (R1231). -/
theorem refreshedFlags_of_loaded
    (h : c.vid.sr.flags = byteBit (c.vid.sr.loaded.charPos == c.vid.sr.loaded.cursor) 0 |||
      byteBit (!c.vid.sr.loaded.rvsOff && bit c.vid.sr.char 7) 1) :
    c.refreshedFlags =
      byteBit (c.vid.sr.loaded.charPos == c.cursor) 0 ||| byteBit (!c.rvsOff && bit c.vid.sr.char 7) 1 := by
  have hbits : ∀ b0 b1 : Bool, let f := byteBit b0 0 ||| byteBit b1 1
      bit f 0 = b0 ∧ bit f 1 = b1 ∧ f &&& 0xFC = 0#8 := by decide
  obtain ⟨hbit0, hbit1, hrest⟩ := h ▸ hbits _ _
  have hcursor : (if c.cursor = c.vid.sr.loaded.cursor then bit c.vid.sr.flags 0
      else c.vid.sr.loaded.charPos == c.cursor) = (c.vid.sr.loaded.charPos == c.cursor) := by
    split_ifs with heq
    · rw [hbit0, heq]
    · rfl
  have hreverse : (if c.rvsOff = c.vid.sr.loaded.rvsOff then bit c.vid.sr.flags 1
      else !c.rvsOff && bit c.vid.sr.char 7) = (!c.rvsOff && bit c.vid.sr.char 7) := by
    split_ifs with heq
    · rw [hbit1, heq]
    · rfl
  simp only [Chip.refreshedFlags, hcursor, hreverse, hrest, BitVec.zero_or]

/-! ## The render step (R930) -/

theorem renderSelection_of_blank (h : c.seq.hBlank = true ∨ c.seq.vBlank = true) : renderSelection c = .blank :=
  if_pos (Bool.or_eq_true_iff.2 h)

/-- Outside horizontal and vertical blanking the display window decides. -/
theorem renderSelection_of_not_blank (hh : c.seq.hBlank = false) (hv : c.seq.vBlank = false) :
    renderSelection c = if c.seq.winH && c.seq.winV then .mode c.seq.renderer else .border := by
  rw [renderSelection, hh, hv, Chip.windowActive]
  cases c.seq.winH && c.seq.winV <;> rfl

theorem renderSelection_eq (c : Chip) :
    renderSelection c = if c.seq.hBlank || c.seq.vBlank then RenderSel.blank
      else if c.seq.winH && c.seq.winV then .mode c.seq.renderer else .border := by
  rw [renderSelection, Chip.windowActive]
  cases c.seq.winH && c.seq.winV <;> rfl

/-- The render step is the selected renderer's group, under the flags as read. -/
theorem renderStep_of_selection {sel : RenderSel} (h : renderSelection c = sel) (p : Phase) :
    renderStep p c =
      emitGroup sel (pixelRem p c) (sel.group (pixelRem p c) { c with vid.sr.flags := c.flagsRead }) c := by
  rw [← h, ← flagsNow_eq_flagsRead]
  rfl

end

/-- Settles O47: the selection by its cases, and the colours by the congruence of `invoke`. -/
theorem overrideCheck : Obligations.OverrideCheck := by
  intro p c r shown sel
  have hsel : renderSelection c = sel := renderSelection_eq c
  refine ⟨fun hblank => renderStep_of_selection (renderSelection_of_blank hblank) p,
    fun hh hv hwin => renderStep_of_selection ?border p, fun hh hv hwinH hwinV => renderStep_of_selection ?window p,
    fun hreverse hcursor => ?current,
    fun d any rem hsr hregs hflash hcfg hdraws => invoke_congr hsr hregs hflash hcfg hdraws any rem,
    renderStep_seq p c⟩
  case border =>
    have hout : (c.seq.winH && c.seq.winV) = false := Bool.and_eq_false_iff.2 hwin
    rw [renderSelection_of_not_blank hh hv, hout]
    rfl
  case window =>
    rw [renderSelection_of_not_blank hh hv, hwinH, hwinV]
    rfl
  case current =>
    rw [renderStep_of_flagsCurrent p c (flagsCurrent_iff.2 ⟨hcursor, hreverse⟩), hsel]

/-! ## The shift-register advance (R910, R911) -/

section
variable {c : Chip}

theorem loadShiftReg_of_lineEnd (h : c.seq.charCol = 40) : loadShiftReg c = c :=
  dif_neg (by rw [h]; decide)

theorem loadShiftReg_of_lt (h : c.seq.charCol.val < 40) :
    loadShiftReg c = { c with
      vid.sr := ⟨c.vid.attrCur[c.seq.charCol.val], c.vid.charBuf[c.seq.charCol.val], c.vid.fetched,
        c.srFlags c.vid.charBuf[c.seq.charCol.val], c.flagInputs⟩
      seq.charPos := c.seq.charPos + 1
      seq.charCol := ⟨c.seq.charCol.val + 1, by omega⟩ } := dif_pos h

theorem srFlags_of_default (h : c.cfg.srFlagsLaw = none) (ch : Byte) :
    c.srFlags ch = byteBit (c.seq.charPos == c.cursor) 0 ||| byteBit (!c.rvsOff && bit ch 7) 1 := by
  simp only [Chip.srFlags, h]

theorem srFlags_of_other {k : Nat} (h : c.cfg.srFlagsLaw = some k) (ch : Byte) :
    c.srFlags ch = Config.srFlags k c.elements := by
  simp only [Chip.srFlags, h]

/-- The default flags as the sum of CURSOR and REVERSE (R911). -/
theorem srFlags_of_default_eq_sum (h : c.cfg.srFlagsLaw = none) (ch : Byte) :
    c.srFlags ch = (if c.seq.charPos = c.cursor then 1 else 0) + (if c.rvsOff = false ∧ bit ch 7 = true then 2 else 0) := by
  have hsum : ∀ b0 b1 b2 : Bool, byteBit b0 0 ||| byteBit (!b1 && b2) 1 =
      (if b0 = true then 1 else 0) + (if b1 = false ∧ b2 = true then 2 else 0) := by decide
  rw [srFlags_of_default h, hsum]
  simp only [beq_iff_eq]

end

/-- The flags read after a load, the registers changed to `after`, are those of a load under `after` (R1231): the load's own
flags are those of R911, which is what a refresh needs. -/
theorem flagsRead_loadShiftReg {c : Chip} (h : c.seq.charCol.val < 40) (hlaw : c.cfg.srFlagsLaw = none)
    (after : Vector Byte 32) :
    { loadShiftReg c with rf.regs := after }.flagsRead = (loadShiftReg { c with rf.regs := after }).vid.sr.flags := by
  let d := { c with rf.regs := after }
  have hload : (loadShiftReg d).vid.sr.flags = d.srFlags d.vid.charBuf[c.seq.charCol.val] :=
    congrArg (·.vid.sr.flags) (loadShiftReg_of_lt (c := d) h)
  rw [hload, srFlags_of_default (c := d) hlaw, loadShiftReg_of_lt h, flagsRead_of_default (by exact hlaw)]
  exact refreshedFlags_of_loaded (srFlags_of_default hlaw _)

/-- Settles O49: the load and its flags, and the flags read after it. -/
theorem shiftRegisterAdvance : Obligations.ShiftRegisterAdvance := by
  refine fun c => ⟨loadShiftReg_of_lineEnd, fun h => ⟨?_, fun after hlaw => flagsRead_loadShiftReg h hlaw after⟩⟩
  rw [loadShiftReg_of_lt h]
  cases hlaw : c.cfg.srFlagsLaw with
  | none => rw [srFlags_of_default_eq_sum hlaw]; rfl
  | some k => rw [srFlags_of_other hlaw]; rfl

end Sys2Proof.Proofs

/-! # Proofs: the sound unit -/

namespace Sys2Proof.Proofs

open Sys2Proof.Machine Sys2Proof.Laws

/-! ## The noise register (R1022) -/

theorem parity_toNat (n x : Nat) : (parity n x).toNat = (List.range n).countP (x.testBit ·) % 2 := by
  induction n with
  | zero => rfl
  | succ n ih =>
    have hxor : ∀ a b : Bool, (a ^^ b).toNat = (b.toNat + a.toNat) % 2 := by decide
    have hbit : [n].countP (x.testBit ·) = (x.testBit n).toNat := by cases h : x.testBit n <;> simp [h]
    rw [parity, hxor, ih, List.range_succ, List.countP_append, hbit, Nat.mod_add_mod]

theorem lfsrStep_eq (p : Params) (x : Nat) :
    lfsrStep p x = (2 * x + ((List.range p.lfsrWidth).countP fun i => x.testBit i && p.lfsrTaps.testBit i) % 2)
      % 2 ^ p.lfsrWidth := by
  simp only [lfsrStep, parity_toNat, Nat.testBit_and]

/-! ## The channels (R1020, R1021) -/

/-- A channel at 0 underflows; another counts down and decays. -/
theorem channelStep_eq (n : Nat) (ch : Channel) :
    ch.step n =
      if ch.cnt = 0 then { ch with cnt := ch.reload, latch := !ch.latch, decay := 0, silent := false }
      else { ch with
        cnt := ch.cnt - 1
        decay := if ch.decay < n then ch.decay + 1 else ch.decay
        silent := ch.silent || (if ch.decay < n then ch.decay + 1 = n else ch.decay = n) } := by
  unfold Channel.step
  by_cases hdecay : ch.decay < n <;> simp only [hdecay, if_true, if_false]

theorem stepChannels_of_dacMode {c : Chip} (h : c.dacMode = true) : stepChannels c = c := if_pos h

theorem stepChannels_of_not_dacMode {c : Chip} (h : c.dacMode = false) :
    stepChannels c = { c with snd := {
      ch1 := c.snd.ch1.step c.cfg.decayTicks
      ch2 := c.snd.ch2.step c.cfg.decayTicks
      lfsr := if c.snd.ch2.cnt = 0 then lfsrStep c.cfg c.snd.lfsr else c.snd.lfsr
      prevLevel := c.snd.prevLevel } } := by
  rw [stepChannels, h]
  rfl

/-- Stepping the channels changes their elements and the noise register only. -/
theorem stepChannels_frame (c : Chip) : stepChannels c = { c with snd := { (stepChannels c).snd with
    prevLevel := c.snd.prevLevel } } := by
  cases h : c.dacMode with
  | true => rw [stepChannels_of_dacMode h]
  | false => rw [stepChannels_of_not_dacMode h]

@[simp] theorem stepChannels_cfg (c : Chip) : (stepChannels c).cfg = c.cfg := by rw [stepChannels_frame]

@[simp] theorem stepChannels_rf (c : Chip) : (stepChannels c).rf = c.rf := by rw [stepChannels_frame]

/-! ## The level and the sample (R1020, R1030) -/

theorem toNat_append_bit1 {w : Nat} (x : BitVec w) (b : Bool) : (x ++ bit1 b).toNat = 2 * x.toNat + b.toNat := by
  rw [BitVec.toNat_append, ← Nat.shiftLeft_add_eq_or_of_lt (bit1 b).isLt, Nat.shiftLeft_eq, bit1, BitVec.toNat_ofBool,
    Nat.mul_comm, Nat.pow_one]

theorem field_high_toNat (v : Byte) : (field v 4 4).toNat = v.toNat / 16 := by
  rw [field, BitVec.extractLsb'_toNat, Nat.shiftRight_eq_div_pow]
  have := v.isLt
  omega

theorem volume_toNat (c : Chip) : c.volume.toNat = c.rf.regs[0x11].toNat % 16 := by
  rw [Chip.volume, field, BitVec.extractLsb'_toNat]
  rfl

theorem mixIndex_eq (c : Chip) :
    mixIndex c = 8 * (c.rf.regs[0x11].toNat / 16) + (if c.snd.lfsr.testBit 0 then 4 else 0) +
      (if c.snd.ch2.latch && !c.snd.ch2.silent then 2 else 0) +
      (if c.snd.ch1.latch && !c.snd.ch1.silent then 1 else 0) := by
  have hbit : ∀ (b : Bool) (n : Nat), (if b then n else 0) = n * b.toNat := by
    intro b n
    cases b
    · rfl
    · exact (Nat.mul_one n).symm
  have hcontrol : c.reg 0x11 = c.rf.regs[0x11] := rfl
  simp only [mixIndex, toNat_append_bit1, field_high_toNat, hcontrol, Channel.out, hbit]
  omega

theorem level_eq (c : Chip) :
    level c = (c.cfg.scale.getD (c.cfg.mix.getD (mixIndex c) 0) []).getD
      (c.cfg.vol.getD (c.rf.regs[0x11].toNat % 16) 0) 0 := by
  rw [level, volume_toNat, Params.scaleOf]

/-- A tick plays the level of the stepped channels, with the level before it. -/
theorem soundTick_eq (c : Chip) :
    soundTick c = { c with
      snd := { (stepChannels c).snd with prevLevel := level (stepChannels c) }
      trace := .sample (c.cfg.dist.getD (c.snd.prevLevel + level (stepChannels c)) 0) :: c.trace } := by
  generalize hl : level (stepChannels c) = l
  rw [soundTick, playLevel, sampleOf, hl, stepChannels_frame]
  rfl

/-- Settles O50: the tick by whether DAC mode holds the channels, and the forced state. -/
theorem soundSteps : Obligations.SoundSteps := by
  intro s g control next held ch1 ch2 x shifted lfsr index played force
  have hnext : ∀ ch, next ch = ch.step g.decayTicks := fun ch => (channelStep_eq g.decayTicks ch).symm
  have hshifted : shifted = lfsrStep g x := (lfsrStep_eq g x).symm
  have hsnd : (stepChannels s.chip).snd = ⟨ch1, ch2, lfsr, s.chip.snd.prevLevel⟩ := by
    cases hmode : s.chip.dacMode with
    | true =>
      have hheld : held = true := hmode
      simp only [stepChannels_of_dacMode hmode, ch1, ch2, lfsr, hheld, if_true, Bool.true_eq_false, false_and,
        if_false, x]
    | false =>
      have hheld : held = false := hmode
      simp only [stepChannels_of_not_dacMode hmode, ch1, ch2, lfsr, hheld, hnext, hshifted, Bool.false_eq_true, if_false,
        true_and, g, x]
  have hindex : mixIndex (stepChannels s.chip) = index := by rw [mixIndex_eq, hsnd, stepChannels_rf]
  have hplayed : level (stepChannels s.chip) = played := by
    rw [level_eq, hindex, stepChannels_rf, stepChannels_cfg]
  exact ⟨exec_of_chipStep rfl (by rw [soundTick_eq, hsnd, hplayed]), exec_of_chipStep rfl rfl⟩

/-! ## The bounds of a good state (R1034) -/

theorem soundOk_of_good {s : State} (h : Good s = true) : soundOk s.chip.cfg s.chip.snd = true := by
  obtain ⟨-, hchip, -⟩ := (good_iff s).1 h
  obtain ⟨-, hparts⟩ := (chipOk_iff s.chip).1 hchip
  simp only [partsOk, Bool.and_eq_true] at hparts
  obtain ⟨-, hsound⟩ := hparts
  exact hsound

theorem prevLevel_le_of_good {s : State} (h : Good s = true) : s.chip.snd.prevLevel ≤ 150 := by
  have hsound := soundOk_of_good h
  simp only [soundOk, Bool.and_eq_true, decide_eq_true_eq] at hsound
  obtain ⟨-, hprev⟩ := hsound
  exact hprev

theorem dist_length_of_valid {p : Params} (h : p.valid = true) : p.dist.length = 301 := by
  simp only [Params.valid, soundTablesOk, Bool.and_eq_true, decide_eq_true_eq] at h
  obtain ⟨-, ⟨-, hdist⟩, -⟩ := h
  exact hdist

/-- Settles O51: both levels are at most 150, and the distortion table has 301 entries. -/
theorem samplesAreTableEntries : Obligations.SamplesAreTableEntries := by
  intro s hgood
  obtain ⟨hvalid, -, -⟩ := (good_iff s).1 hgood
  have hlevel : level (stepChannels s.chip) ≤ 150 := level_le _ (by rw [stepChannels_cfg]; exact hvalid)
  have hentry : s.chip.snd.prevLevel + level (stepChannels s.chip) < s.chip.cfg.dist.length := by
    have hprev := prevLevel_le_of_good hgood
    rw [dist_length_of_valid hvalid]
    omega
  refine ⟨_, level (stepChannels s.chip), _, exec_of_chipStep rfl (soundTick_eq s.chip), hlevel, rfl,
    List.getElem?_eq_getElem hentry, ?_⟩
  rw [← List.getD_eq_getElem _ 0 hentry]

end Sys2Proof.Proofs

/-! # Proofs: every operation completes -/

namespace Sys2Proof.Proofs

open Sys2Proof.Machine Sys2Proof.Laws

/-! ## The host calls whose meaning branches -/

/-- A run() completes: a negative count is an error that it returns, any other count is run (R800). -/
theorem exec_hostRun_completes (ticks : Int) (s : State) : ∃ t, exec (.hostRun ticks) s = .next t := by
  obtain hneg | hnonneg := lt_or_ge ticks 0
  · exact ⟨_, execHostRun_of_neg s hneg⟩
  · exact ⟨_, execHostRun_of_nonneg s hnonneg⟩

/-- A snapshot that the host holds is restored, with its tick budget (R1211). -/
theorem exec_hostLoadState_of_lt {k : Nat} {s : State} (h : k < s.host.snapshots.length) :
    exec (.hostLoadState k) s =
      .next ({ s with
        chip := s.chip.restore s.host.snapshots[k]
        tickBudget := s.host.snapshots[k].tickBudget }.returns .nothing) := by
  simp only [exec, execHostLoadState, List.getElem?_eq_getElem h]

/-- A number that no snapshot of the host has is refused (log 17). -/
theorem exec_hostLoadState_of_ge {k : Nat} {s : State} (h : s.host.snapshots.length ≤ k) :
    exec (.hostLoadState k) s = .refused (.noSnapshot k) := by
  simp only [exec, execHostLoadState, List.getElem?_eq_none h]

/-! ## Every operation -/

/-- Every operation but loadState has a next state: one of the chip alone changes the chip, and a host call answers in
each of its branches. -/
theorem exec_completes {i : Instr} (hload : ∀ k, i ≠ .hostLoadState k) (s : State) : ∃ t, exec i s = .next t := by
  by_cases hf : (encode i).fmt = .host
  · cases i with
    | hostLoadState k => exact absurd rfl (hload k)
    | hostConfigureRAM size fp => exact ⟨_, exec_configureRAM size fp s⟩
    | hostRun ticks => exact exec_hostRun_completes ticks s
    | hostLoadROM | hostResolve | hostGetSegmentKind | hostReset | hostSaveState | hostRegisterCallback
    | hostWriteRegister | hostReadRegister | hostReservedB | hostReservedC | hostReservedD | hostReservedE
    | hostReservedF => exact ⟨_, rfl⟩
    | _ => cases hf
  · obtain ⟨f, hexec, -⟩ := exec_evolves i s hf
    exact ⟨s.onChip f, hexec⟩

/-- Settles O12: loadState by whether the host holds the snapshot; every other operation completes. -/
theorem everyOperationCompletes : Obligations.EveryOperationCompletes := by
  intro i s
  by_cases hload : ∃ k, i = .hostLoadState k
  · obtain ⟨k, rfl⟩ := hload
    obtain hheld | hmissing := lt_or_ge k s.host.snapshots.length
    · exact .inl ⟨_, exec_hostLoadState_of_lt hheld⟩
    · exact .inr ⟨k, rfl, hmissing, exec_hostLoadState_of_ge hmissing⟩
  · exact .inl (exec_completes (not_exists.1 hload) s)

end Sys2Proof.Proofs

/-! # Proofs: reset and the snapshots -/

namespace Sys2Proof.Proofs

open Sys2Proof.Machine Sys2Proof.Laws

/-! ## Reset (R1200, R1201, R1202) -/

/-! ### The storage -/

/-- The storage that a reset leaves: refilled by a cold one under REFILL (R1201). -/
def memAfterReset (cold : Bool) (ram : ColdRam) (m : Memory) : Memory := if cold ∧ ram = .refill then m.refill else m

theorem coldRamReset_eq (cold : Bool) (c : Chip) :
    coldRamReset cold c = { c with mem := memAfterReset cold c.cfg.coldRam c.mem } := by
  unfold coldRamReset memAfterReset
  split <;> rfl

theorem memAfterReset_keep {cold : Bool} {ram : ColdRam} (h : cold = false ∨ ram = .keep) (m : Memory) :
    memAfterReset cold ram m = m := by
  obtain rfl | rfl := h <;> exact if_neg (by simp)

theorem memAfterReset_refill (m : Memory) : memAfterReset true .refill m = m.refill := rfl

/-- A refilled RAM segment reads as configureRAM would fill it now: its written bytes are forgotten. -/
theorem refill_read_of_isRam {m : Memory} {size fp : Nat} (hsize : m.ramSizeKiB = some size)
    (hfill : m.fillPattern = some fp) {k off : Nat} (hoff : off < Config.segSize) (hk : m.isRam k = true) :
    m.refill.read k off = some (Config.ramFill size fp k off) := by
  obtain ⟨size', fp', hseg⟩ := (isRam_eq m k).1 hk
  have hrefilled : m.refill.seg k = some (.ram size fp) := by
    rw [refill_seg, hsize, hfill, hseg]
    rfl
  have hforgotten : assocGet m.refill.cells (cellAddr k off) = none := by
    rw [Memory.refill, hsize, hfill]
    refine (keepCells_cells (fun i => !m.isRam i) m _).trans ?_
    rw [cellAddr_div k off hoff, hk]
    rfl
  rw [Memory.read, hrefilled, hforgotten]
  rfl

/-! ### The call -/

theorem notifyStandard_eq (before : Bool) (c : Chip) :
    notifyStandard before c =
      { c with trace := if c.seq.ntsc = before then c.trace else .ntsc c.seq.ntsc :: c.trace } := by
  unfold notifyStandard
  split <;> rfl

/-- The elements after a reset, on a state whose draws have been taken. -/
theorem reset_eq_afterResetWith (cold : Bool) (d : ResetDraws) (s : State) :
    { s.onChip (resetChip cold d) with tickBudget := 0 }.returns .nothing =
      s.afterResetWith cold d s.host.resetDraws (memAfterReset cold s.chip.cfg.coldRam s.chip.mem) := by
  rw [State.onChip, resetChip, notifyStandard_eq, coldRamReset_eq]
  rfl

theorem exec_hostReset (cold : Bool) (s : State) :
    exec (.hostReset cold) s = .next (s.drewReset.afterResetWith cold s.resetDraw s.drewReset.host.resetDraws
      (memAfterReset cold s.drewReset.chip.cfg.coldRam s.drewReset.chip.mem)) :=
  congrArg Host.Outcome.next (reset_eq_afterResetWith cold s.resetDraw s.drewReset)

theorem exec_hostReset_of_supplied (cold : Bool) {s : State} {d : ResetDraws} {rest : List ResetDraws}
    (h : s.host.resetDraws = d :: rest) :
    exec (.hostReset cold) s =
      .next (s.afterResetWith cold d rest (memAfterReset cold s.chip.cfg.coldRam s.chip.mem)) := by
  have hdraw : s.resetDraw = d := by rw [State.resetDraw, h]
  have hdrew : s.drewReset = { s with host.resetDraws := rest } := by rw [State.drewReset, h]
  rw [exec_hostReset, hdraw, hdrew]
  rfl

theorem exec_hostReset_of_free (cold : Bool) {s : State} (h : s.host.resetDraws = []) :
    exec (.hostReset cold) s =
      .next { s.afterResetWith cold (Config.resetDraw s.chip.draws) []
        (memAfterReset cold s.chip.cfg.coldRam s.chip.mem) with chip.draws := s.chip.draws + 1 } := by
  have hdraw : s.resetDraw = Config.resetDraw s.chip.draws := by rw [State.resetDraw, h]
  have hdrew : s.drewReset = s.onChip (·.drew 1) := by rw [State.drewReset, h]
  rw [exec_hostReset, hdraw, hdrew, onChip_host, h]
  rfl

/-- Settles O57: warm, or with RAM kept, the storage stays, whether the draws are supplied or free. -/
theorem resetSetsEveryElement : Obligations.ResetSetsEveryElement := by
  intro s cold hkeeps
  have hmem := memAfterReset_keep hkeeps s.chip.mem
  refine ⟨fun d rest hdraws => ?_, fun hdraws => ?_⟩
  · rw [exec_hostReset_of_supplied cold hdraws, hmem]
  · rw [exec_hostReset_of_free cold hdraws, hmem]

/-- Settles O58: the storage after the reset is the refilled one, whose RAM reads as filled and whose ROM slots are kept. -/
theorem coldResetRefillsRam : Obligations.ColdResetRefillsRam := by
  intro s _ _ hrefill
  obtain ⟨hsize, hfill⟩ := refill_config s.chip.mem
  refine ⟨s.chip.mem.refill, fun d rest hdraws => ?_, fun hdraws => ?_, hsize, hfill,
    fun k => ⟨refill_isRam _ k, refill_isRom _ k⟩, fun k off hoff hrom => (keepsSlot_refill hrom).read_eq hoff,
    fun k off size fp hoff hram hsome hpattern => refill_read_of_isRam hsome hpattern hoff hram⟩
  · rw [exec_hostReset_of_supplied true hdraws, hrefill, memAfterReset_refill]
  · rw [exec_hostReset_of_free true hdraws, hrefill, memAfterReset_refill]

/-! ## Snapshots (R1210, R1211, R1212) -/

/-! ### The storage -/

/-- After loadState the RAM slots of the snapshot are the chip's, bytes included (R1211). -/
theorem keepsSlot_withRam_of_isRam (m : Memory) {ram : Memory} (hwf : ram.wf = true) {k : Nat} (hk : ram.isRam k = true) :
    KeepsSlot k ram (m.withRam ram) := by
  obtain ⟨hsegs, hcells, -, -⟩ := (wf_iff ram).1 hwf
  obtain ⟨size, fp, hseg⟩ := (isRam_eq ram k).1 hk
  refine ⟨by rw [withRam_seg m ram hsegs, hseg, Option.some_or], fun x hx => ?_⟩
  rw [withRam_cells m ram hcells, hx, hseg, Option.isNone_some, Bool.and_false, if_neg Bool.false_ne_true, Option.or_none]

/-- What a good, laid-out state knows of the memory part of a snapshot that the host holds: it holds RAM alone, and no
segment where the chip has ROM. -/
theorem snapshot_ram_of_held {s : State} (hs : Good s = true) (hlaid : LaidOut s = true) {snap : Snapshot}
    (hheld : snap ∈ s.host.snapshots) :
    snap.ram.wf = true ∧ ramOnly snap.ram = true ∧ ∀ k, s.chip.mem.isRom k = true → snap.ram.seg k = none := by
  obtain ⟨-, -, hsnapsOk⟩ := (good_iff s).1 hs
  obtain ⟨hapart, -, hromLaid, hsnapsLaid⟩ := (laidOut_iff s).1 hlaid
  have hok := hsnapsOk snap hheld
  simp only [snapshotOk, Bool.and_eq_true] at hok
  obtain ⟨⟨hwf, honly⟩, -⟩ := hok
  exact ⟨hwf, honly, fun k hk =>
    seg_eq_none_of_ramLaid hapart hwf honly (hsnapsLaid snap hheld).1 (mem_romSlots_of_isRom hromLaid hk)⟩

/-- A present segment is RAM or ROM. -/
theorem seg_eq_none_of_not_isRam_of_not_isRom {m : Memory} {k : Nat} (hram : m.isRam k = false)
    (hrom : m.isRom k = false) : m.seg k = none := by
  rw [Memory.isRam] at hram
  rw [Memory.isRom] at hrom
  cases hseg : m.seg k with
  | none => rfl
  | some sg => cases sg <;> simp [hseg, Segment.isRam] at hram hrom

/-- A storage in canonical form lists no byte of an ABSENT slot. -/
theorem cells_eq_none_of_seg_eq_none {m : Memory} (hwf : m.wf = true) {x : Nat}
    (h : m.seg (x / Config.segSize) = none) : assocGet m.cells x = none := by
  obtain ⟨-, -, -, hpresent⟩ := (wf_iff m).1 hwf
  refine Option.eq_none_iff_forall_ne_some.2 fun v hv => ?_
  have hsome := hpresent x v hv
  rw [h] at hsome
  cases hsome

theorem keepsSlot_of_absent {m m' : Memory} (hwf : m.wf = true) (hwf' : m'.wf = true) {k : Nat} (h : m.seg k = none)
    (h' : m'.seg k = none) : KeepsSlot k m m' := by
  refine ⟨h'.trans h.symm, fun x hx => ?_⟩
  subst hx
  rw [cells_eq_none_of_seg_eq_none hwf h, cells_eq_none_of_seg_eq_none hwf' h']

/-- A storage in canonical form is given by its configuration and its slots. -/
theorem memory_eq_of_keepsSlot {m m' : Memory} (hm : m.wf = true) (hm' : m'.wf = true) (h : ∀ k, KeepsSlot k m m')
    (hsize : m'.ramSizeKiB = m.ramSizeKiB) (hfill : m'.fillPattern = m.fillPattern) : m' = m :=
  memory_ext hm' hm (fun k => (h k).seg) (fun x => (h _).cells x rfl) hsize hfill

/-- The memory part of a snapshot has the RAM slots of the chip. -/
theorem keepsSlot_ramPart {m : Memory} {k : Nat} (hk : m.isRam k = true) : KeepsSlot k m m.ramPart :=
  ⟨by rw [ramPart_seg, if_pos hk], fun x hx => by rw [ramPart_cells, hx, if_pos hk]⟩

/-- Loading the RAM of a storage beside the same ROM gives the storage back (R1212): a slot is RAM and the snapshot's, ROM
and the same in both chips, or ABSENT. -/
theorem withRam_ramPart {m m' : Memory} (hwf : m.wf = true) (hwf' : m'.wf = true)
    (hisRom : ∀ k, m'.isRom k = m.isRom k) (hrom : ∀ k, m.isRom k = true → KeepsSlot k m m') :
    m'.withRam m.ramPart = m := by
  have hpart : m.ramPart.wf = true := wf_ramPart hwf
  have hjoined : (m'.withRam m.ramPart).wf = true := wf_withRam hwf' hpart
  refine memory_eq_of_keepsSlot hwf hjoined (fun k => ?_) rfl rfl
  cases hk : m.isRam k with
  | true =>
    exact (keepsSlot_ramPart hk).trans (keepsSlot_withRam_of_isRam m' hpart ((ramPart_isRam m k).trans hk))
  | false =>
    have habsent : m.ramPart.seg k = none := by rw [ramPart_seg, hk, if_neg Bool.false_ne_true]
    cases hr : m.isRom k with
    | true => exact (hrom k hr).trans (keepsSlot_withRam hpart ((hisRom k).trans hr) habsent)
    | false =>
      obtain ⟨hsegs, -, -, -⟩ := (wf_iff _).1 hpart
      have hjoinedAbsent : (m'.withRam m.ramPart).seg k = none := by
        rw [withRam_seg _ _ hsegs, habsent, Option.none_or, hisRom, hr, if_neg Bool.false_ne_true]
      exact keepsSlot_of_absent hwf hjoined (seg_eq_none_of_not_isRam_of_not_isRom hk hr) hjoinedAbsent

/-! ### The calls -/

theorem exec_hostLoadState_of_held {n : Nat} {s : State} {snap : Snapshot} (h : s.host.snapshots[n]? = some snap) :
    exec (.hostLoadState n) s =
      .next ({ s with chip := s.chip.restore snap, tickBudget := snap.tickBudget }.returns .nothing) := by
  obtain ⟨hlt, rfl⟩ := List.getElem?_eq_some_iff.1 h
  exact exec_hostLoadState_of_lt hlt

/-- Settles O59: the storage is the snapshot's RAM beside the chip's ROM, which it does not meet. -/
theorem snapshotsSaveAndLoad : Obligations.SnapshotsSaveAndLoad := by
  refine ⟨fun s => rfl, fun s n snap hs hlaid hheld => ?_⟩
  obtain ⟨hwf, honly, habsent⟩ := snapshot_ram_of_held hs hlaid (List.mem_of_getElem? hheld)
  have hrom : ∀ i, s.chip.mem.isRom i = true → KeepsSlot i s.chip.mem (s.chip.mem.withRam snap.ram) :=
    fun i hi => keepsSlot_withRam hwf hi (habsent i hi)
  refine ⟨s.chip.mem.withRam snap.ram, exec_hostLoadState_of_held hheld, rfl, rfl, withRam_isRam hwf, fun i => ?_,
    fun i off hoff hi => (keepsSlot_withRam_of_isRam _ hwf hi).read_eq hoff,
    fun i off hoff hi => (hrom i hi).read_eq hoff⟩
  exact Bool.eq_iff_iff.2 ⟨isRom_of_withRam hwf honly, fun hi => (hrom i hi).isRom_eq.trans hi⟩

/-- Settles O60: the storage comes back, the mark is the saved one, and what loadState keeps is the same in both chips. -/
theorem snapshotRoundTrip : Obligations.SnapshotRoundTrip := by
  intro s t u n hs _ ht _ hheld hisRom hsegs hcells hcallbacks hcfg hinp hdraws hrefused h
  obtain ⟨-, hsOk, -⟩ := (good_iff s).1 hs
  obtain ⟨-, htOk, -⟩ := (good_iff t).1 ht
  obtain ⟨hwf, -⟩ := (chipOk_iff _).1 hsOk
  obtain ⟨hwf', -⟩ := (chipOk_iff _).1 htOk
  have hmem : t.chip.mem.withRam (snapshotOf s).ram = s.chip.mem :=
    withRam_ramPart hwf hwf' hisRom fun k hk => ⟨hsegs k hk, fun x hx => hcells x (by subst hx; exact hk)⟩
  have hmark : (t.chip.refused || (snapshotOf s).refused) = s.chip.refused := Bool.or_eq_right_iff_imp.2 hrefused
  rw [exec_hostLoadState_of_held hheld] at h
  cases h
  refine ⟨?_, rfl⟩
  rw [returns_chip, Chip.restore, hmem, hmark, hcallbacks, hcfg, hinp, hdraws]
  rfl

end Sys2Proof.Proofs
